-- ==== Sys2Proof/Word.lean ====
section
/-! DEFINITION. The words of the IW4112: bytes, tags, lease times, and the small numbered sets (pool entries, classes,
offer slots, binding slots, sectors). Only names for types stand here. -/

namespace Sys2Proof

/-- One byte of either port. -/
abbrev Byte := BitVec 8

/-- A 48-bit tag (00_scope.md 1.4, 1.6). -/
abbrev Tag := BitVec 48

/-- A two-byte field: terms, timeouts, sequence numbers (R198, R126). -/
abbrev Half := BitVec 16

/-- A value of the lease clock in seconds, 32 bits wide (R49). -/
abbrev LeaseTime := BitVec 32

/-- A pool address by its place in the pool: entry 0 is address 0x10, entry 111 is 0x7F (R2). -/
abbrev Pool := Fin 112

/-- A lease class, 0 to 3 (R51). -/
abbrev ClassId := Fin 4

/-- An offer slot, 0 to 7 (R34). -/
abbrev SlotId := Fin 8

/-- A binding slot of the shadow, 0 to 31 (R123). -/
abbrev BindSlot := Fin 32

/-- A physical flash sector, 0 to 4 (R125). -/
abbrev SectorId := Fin 5

/-- A logical sector, 0 to 3 (R123). -/
abbrev LogicalId := Fin 4

end Sys2Proof
end

