-- ==== Sys2Proof/Syntax.lean ====
section
/-! DEFINITION. The commands of the IW4112: one constructor of `Instr` for each row of spec/opcode_table.json, with what the
row's event brings in from outside the part, and the types of those operands. -/

namespace Sys2Proof

/-- The header of a physical sector as a read finds it (R125). -/
inductive HeaderCell where
  /-- unprogrammed -/
  | blank
  /-- programmed, but it reads as no header -/
  | unreadable
  /-- a logical sector number (as read, 0 to 255) and a sequence number -/
  | written (logical : Byte) (seq : Half)
  deriving DecidableEq, Repr

/-- One slot of a physical sector as a read finds it (R125, R147). -/
inductive SlotCell where
  /-- unprogrammed: reads as empty -/
  | blank
  /-- its content does not read as a binding -/
  | unreadable
  /-- the three fields of a binding, as read -/
  | written (tag : Tag) (addr : Byte) (cls : Byte)
  deriving DecidableEq, Repr

/-- What a read of a physical sector finds (R125): header, valid mark, slots 0 to 7. -/
structure Sector where
  header : HeaderCell
  mark : Bool
  slots : Vector SlotCell 8
  deriving DecidableEq, Repr

/-- The step of a scan repair that a hard reset or a power loss falls in. The steps of a repair have no commands of their
own (R148), so the command that cuts it says which one. -/
inductive RepairStep where
  | program
  | mark
  | erase
  deriving DecidableEq, Repr

/-- What a hard reset or a power loss leaves of a flash operation in progress (R125, R145): how the region reads from then
on, and, for a scan repair only, the step. Without an operation in progress it says nothing. -/
structure FlashCut where
  step : RepairStep
  reads : Sector
  deriving DecidableEq, Repr

/-- What breaks a transaction that is being received before its acknowledge slot (R101). -/
inductive Breaker where
  | start
  | stop
  | idleGap
  deriving DecidableEq, Repr

/-- How an attempt of the part's own ends (R116); an abandonment by FAULT belongs to STUCK_BUS. -/
inductive AttemptResult where
  | nack
  | brokenByStart
  | brokenByStop
  deriving DecidableEq, Repr

/-- The commands. A host request's operand is the list of parameter bytes that the port hands to the owner (R157); a node
request's operands are the fields of its report (R109). -/
inductive Instr where
  /-- HARD_RESET: level of SPD; what is left of a flash operation (R121, R145) -/
  | hardReset (spd : Bool) (cut : FlashCut)
  /-- SCAN_SECTOR_ERASE: what the sector reads as afterwards (R146) -/
  | scanSectorErase (reads : Sector)
  /-- SCAN_REPAIR: read-back of the image, whether the valid mark reads programmed, read-back of the erase that follows, and
  of its retry (R148) -/
  | scanRepair (image : Sector) (mark : Bool) (erase : Sector) (retry : Sector)
  /-- SCAN_END (R149) -/
  | scanEnd
  /-- LEASE_CLOCK_TICK (R49) -/
  | leaseClockTick
  /-- EXPIRY of the lease of a pool address (R64) -/
  | expiry (addr : Pool)
  /-- END_OF_QUARANTINE of a pool address (R72) -/
  | endOfQuarantine (addr : Pool)
  /-- ADOPTION_WINDOW_CLOSE (R87) -/
  | adoptionWindowClose
  /-- OFFER_TIMEOUT of the offer of a pool address (R36) -/
  | offerTimeout (addr : Pool)
  /-- PROBE_TIMEOUT of a pool address (R67) -/
  | probeTimeout (addr : Pool)
  /-- BUS_START_BY_OTHER (R103) -/
  | busStartByOther
  /-- OWN_START (R104) -/
  | ownStart
  /-- CURRENT_MESSAGE_CHOICE (R114) -/
  | currentMessageChoice
  /-- ARBITRATION_LOST: number of the bit, counted from the first bit of the destination (R105) -/
  | arbitrationLost (bit : Nat)
  /-- TRANSACTION_RECEIVED: the bytes from destination to check (R99, R107) -/
  | transactionReceived (bytes : List Byte)
  /-- BROKEN_TRANSACTION (R101) -/
  | brokenTransaction (cause : Breaker)
  /-- BUS_STOP (R103) -/
  | busStop
  /-- BUS_IDLE_GAP (R102) -/
  | busIdleGap
  /-- OWN_TRANSMISSION_ACK (R117) -/
  | ownTransmissionAck
  /-- ATTEMPT (R116) -/
  | attempt (result : AttemptResult)
  /-- STUCK_BUS (R118) -/
  | stuckBus
  /-- FAULT_EXIT (R119) -/
  | faultExit
  /-- JOIN: tag, class byte, hint byte (R23) -/
  | join (tag : Tag) (cls : Byte) (hint : Byte)
  /-- CLAIM: tag, address byte (R40) -/
  | claim (tag : Tag) (addr : Byte)
  /-- RENEW: source, tag, class byte (R54) -/
  | renew (src : Pool) (tag : Tag) (cls : Byte)
  /-- RELEASE: source, tag (R69) -/
  | release (src : Pool) (tag : Tag)
  /-- RESOLVE: source, query tag (R79) -/
  | resolve (src : Byte) (query : Tag)
  /-- WHOIS: source, address byte (R81) -/
  | whois (src : Byte) (addr : Byte)
  /-- SNOOP_REPORT: source (R62) -/
  | snoopReport (src : Pool)
  /-- OFFER_COMPLETION: tag and address of the OFFER (R35) -/
  | offerCompletion (tag : Tag) (addr : Pool)
  /-- OFFER_DROP: tag and address of the OFFER (R37) -/
  | offerDrop (tag : Tag) (addr : Pool)
  /-- PROBE_COMPLETION: destination and tag of the PROBE (R66) -/
  | probeCompletion (addr : Pool) (tag : Tag)
  /-- PROBE_DROP: destination and tag of the PROBE (R68) -/
  | probeDrop (addr : Pool) (tag : Tag)
  /-- EVICT_OUTCOME: destination of the EVICT (R94) -/
  | evictOutcome (addr : Pool)
  /-- REPLY_OUTCOME (R117) -/
  | replyOutcome
  /-- HSEL_N_FALL: level of HSCK (R150) -/
  | hselNFall (hsck : Bool)
  /-- HSEL_N_RISE: the complete bytes on HSDI, and the rising edges of HSCK after the last of them (R151) -/
  | hselNRise (bytes : List Byte) (edges : Fin 8)
  /-- NOP (R164) -/
  | nop (params : List Byte)
  /-- IDENT (R165) -/
  | ident (params : List Byte)
  /-- STATUS (R166) -/
  | status (params : List Byte)
  /-- ACKNOWLEDGE (R168, R190) -/
  | acknowledge (params : List Byte)
  /-- ENABLE (R169) -/
  | enable (params : List Byte)
  /-- LOOKUP_ADDRESS (R170) -/
  | lookupAddress (params : List Byte)
  /-- LOOKUP_ADDRESS_CLEAR (R170) -/
  | lookupAddressClear (params : List Byte)
  /-- LOOKUP_TAG (R172) -/
  | lookupTag (params : List Byte)
  /-- SCAN (R193) -/
  | scan (params : List Byte)
  /-- FREE_LIST (R174) -/
  | freeList (params : List Byte)
  /-- REVOKE (R175) -/
  | revoke (params : List Byte)
  /-- WITHHOLD_ON (R21) -/
  | withholdOn (params : List Byte)
  /-- WITHHOLD_OFF (R22) -/
  | withholdOff (params : List Byte)
  /-- CLASS_SET (R177) -/
  | classSet (params : List Byte)
  /-- CLASS_GET (R178) -/
  | classGet (params : List Byte)
  /-- TIMING_SET (R179) -/
  | timingSet (params : List Byte)
  /-- TIMING_GET (R180) -/
  | timingGet (params : List Byte)
  /-- BIND (R130) -/
  | bind (params : List Byte)
  /-- UNBIND (R136) -/
  | unbind (params : List Byte)
  /-- BINDING_READ (R183) -/
  | bindingRead (params : List Byte)
  /-- RESTART: besides the parameters, how many bits of a transmission in progress have been sent, and whether another
  sender still in arbitration makes the part withdraw during the cut (R184, R122) -/
  | restart (params : List Byte) (sent : Nat) (outbid : Bool)
  /-- IMAGE_PROGRAM: read-back of the target after step 2 (R138) -/
  | imageProgram (reads : Sector)
  /-- VALID_MARK: whether the mark reads as programmed (R138) -/
  | validMark (reads : Bool)
  /-- TARGET_ERASE: read-back (R139) -/
  | targetErase (reads : Sector)
  /-- SUPERSEDED_ERASE: read-back (R140) -/
  | supersededErase (reads : Sector)
  /-- HARD_RESET_END (R146) -/
  | hardResetEnd
  /-- POWER_LOSS: what is left of a flash operation (R145) -/
  | powerLoss (cut : FlashCut)
  deriving DecidableEq, Repr

end Sys2Proof
end

