-- ==== Sys2Proof/Decode.lean ====
section
/-! DEFINITION. Words that spell a command by the table's bits. No row of spec/opcode_table.json gives bits, so no word does. -/

namespace Sys2Proof

/-- The command that a word of `nbits` bits spells: none, for every word (no row of the table gives bits). -/
def decodeTableWord (_nbits _w : Nat) : Option Instr := none

end Sys2Proof
end

