-- ==== Sys2Proof/Config.lean ====
section
/-! DEFINITION. What the IW4112 fixes once for all: capacities, limits, the bus addresses with a meaning of their own, the
defaults, and the one free value of the model. -/

namespace Sys2Proof.Config

/-- The part's own node-bus address (R1). -/
def authority : Byte := 0x01

/-- The shared address of nodes without one (R1). -/
def joinAddress : Byte := 0x0F

/-- Places of the outbound queue (R112). -/
def outboundPlaces : Nat := 8

/-- Attempts after which a message is dropped (R116). -/
def attemptLimit : Nat := 8

/-- Longest payload of a transaction (R99). -/
def maxPayload : Nat := 12

/-- Longest parameter list of a host request (R156). -/
def maxParams : Nat := 20

/-- Closing point of the adoption window after each reset (R87). -/
def windowDefault : LeaseTime := 120

/-- FREE VALUE. What a lease time reads as that does not fit 32 bits. R49 says that the count does not reach its limit, and
so states no such value (log 5); nothing is known of it. -/
opaque leaseTimePastLimit : Nat → LeaseTime

end Sys2Proof.Config
end

