-- ==== Sys2Proof/Machine/Operands.lean ====
section
/-! DEFINITION. The operand forms: fields and byte order (R198), addresses, classes and tags as bytes, the check byte (R197),
sequence numbers (R126). -/

namespace Sys2Proof.Machine

/-- A tag is valid unless it is all zeros or all ones (00_scope.md 1.6). -/
def validTag (t : Tag) : Bool := t != 0 && t != BitVec.allOnes 48

/-- The 112 pool addresses in ascending order (R2). -/
def pools : List Pool := List.finRange 112

/-- The address byte of a pool entry, 0x10 to 0x7F (R2). -/
def poolByte (p : Pool) : Byte := BitVec.ofNat 8 (p.val + 0x10)

/-- The pool entry that an address byte names, if it names one (R2). -/
def poolOfByte (b : Byte) : Option Pool :=
  if h : 0x10 ≤ b.toNat ∧ b.toNat < 0x80 then some ⟨b.toNat - 0x10, by omega⟩ else none

/-- The class that a class byte names; a value above 3 names none (R23, R54, R177). -/
def classOfByte (b : Byte) : Option ClassId :=
  if h : b.toNat < 4 then some ⟨b.toNat, h⟩ else none

/-- A small number as a byte (R198). -/
def byteOf (n : Nat) : Byte := BitVec.ofNat 8 n

/-- The `k` low bytes of a number, most significant byte first (R198). -/
def beBytes : Nat → Nat → List Byte
  | 0, _ => []
  | k + 1, n => BitVec.ofNat 8 (n / 256 ^ k) :: beBytes k n

/-- The number that bytes spell, most significant byte first (R198). -/
def beNat (bs : List Byte) : Nat := bs.foldl (fun n b => n * 256 + b.toNat) 0

/-- The six bytes of a tag (R198). -/
def tagBytes (t : Tag) : List Byte := beBytes 6 t.toNat

/-- The tag that six bytes spell (R198). -/
def tagOfBytes (bs : List Byte) : Tag := BitVec.ofNat 48 (beNat bs)

/-- The two bytes of a term, a timeout or a period (R198). -/
def halfBytes (h : Half) : List Byte := beBytes 2 h.toNat

/-- The field that two bytes spell (R198). -/
def halfOfBytes (hi lo : Byte) : Half := BitVec.ofNat 16 (beNat [hi, lo])

/-- The four bytes of a lease time (R198). -/
def timeBytes (t : LeaseTime) : List Byte := beBytes 4 t.toNat

/-- A count of seconds as a lease time (R49): a free value past 32 bits (log 5). -/
def leaseTime (n : Nat) : LeaseTime :=
  if n < 2 ^ 32 then BitVec.ofNat 32 n else Config.leaseTimePastLimit n

/-- One shift of the check register (R197). -/
def crcShift (r : Byte) : Byte := if r.msb then (r <<< 1) ^^^ 0x07 else r <<< 1

/-- The check register after one more byte: XOR, then eight shifts (R197). -/
def crcByte (r b : Byte) : Byte :=
  crcShift (crcShift (crcShift (crcShift (crcShift (crcShift (crcShift (crcShift (r ^^^ b))))))))

/-- The check byte over a list of bytes (R197). -/
def crc8 (bs : List Byte) : Byte := bs.foldl crcByte 0xFF

/-- Bytes followed by their check byte (R197). -/
def withCheck (bs : List Byte) : List Byte := bs ++ [crc8 bs]

/-- The bits of a byte in the order they cross either port (R99, R150). -/
def byteBits (b : Byte) : List Bool := [b.getMsbD 0, b.getMsbD 1, b.getMsbD 2, b.getMsbD 3,
  b.getMsbD 4, b.getMsbD 5, b.getMsbD 6, b.getMsbD 7]

/-- The bits of a list of bytes in the order they cross the bus (R99). -/
def bitsOf (bs : List Byte) : List Bool := bs.flatMap byteBits

/-- Of two sequence numbers, `a` is newer than `b` (R126). -/
def newer (a b : Half) : Bool := decide (1 ≤ (a - b).toNat ∧ (a - b).toNat ≤ 32767)

/-- A sector that reads as erased: every part unprogrammed (R125). -/
def blankSector : Sector := ⟨.blank, false, Vector.replicate 8 .blank⟩

/-- The logical sector and sequence number of a valid sector: a header with a number 0 to 3, and the valid mark (R125). -/
def validImage (x : Sector) : Option (LogicalId × Half) :=
  match x.mark, x.header with
  | true, .written l q => (classOfByte l).map (fun L => (L, q))
  | _, _ => none

/-- The three kinds of a physical sector (R125). -/
inductive SectorKind where
  | erased
  | valid
  | partially
  deriving DecidableEq, Repr

/-- Classification of a sector on reading (R125). -/
def classify (x : Sector) : SectorKind :=
  if x = blankSector then .erased else if (validImage x).isSome then .valid else .partially

end Sys2Proof.Machine
end

