-- ==== Sys2Proof/Machine/State.lean ====
section
/-! DEFINITION. The state of the IW4112: five blocks, each owning its part (00_scope.md 1.3), the power, and the queue of
waiting commands. Plain data throughout. -/

namespace Sys2Proof.Machine

/-! ### Lease engine -/

/-- The phase of an offer slot (2.3): QUEUED until a copy of the OFFER has completed; WAITING with the remaining
milliseconds of the entry's offer timer (R5, R35). -/
inductive OfferPhase where
  | queued
  | waiting (left : Nat)
  deriving DecidableEq, Repr

/-- Where an entry goes if its offer lapses (R24, R38). -/
inductive ReturnState where
  | free
  | reserved
  | quarantine
  deriving DecidableEq, Repr

/-- An occupied offer slot (2.3). -/
structure OfferSlot where
  tag : Tag
  addr : Pool
  cls : ClassId
  term : Half
  ret : ReturnState
  phase : OfferPhase
  deriving DecidableEq, Repr

/-- Where a probe round stands (R65): the PROBE is due, is being sent, or is being waited on with the remaining
milliseconds of the probe timer. -/
inductive ProbePhase where
  | due
  | sending
  | waiting (left : Nat)
  deriving DecidableEq, Repr

/-- The lease state of an entry, with exactly the fields present in it (R2 to R6 and the table of 1.3). -/
inductive Lease where
  | free (last : Option Tag)
  | offered (holder : Tag) (cls : ClassId) (slot : SlotId)
  | live (holder : Tag) (cls : ClassId) (deadline : LeaseTime)
  | stale (holder : Tag) (cls : ClassId) (left : Fin 4) (phase : ProbePhase)
  | quarantine (last : Tag) (deadline : LeaseTime)
  | reserved
  | withheld
  deriving DecidableEq, Repr

/-- Reason of an EVICT (R7). -/
inductive EvictReason where
  | admin
  | pinned
  | moved
  deriving DecidableEq, Repr

/-- The evict due field (R93). -/
inductive EvictDue where
  | absent
  | waiting (target : Tag) (reason : EvictReason)
  | sending (target : Tag) (reason : EvictReason)
  deriving DecidableEq, Repr

/-- A lease entry (1.2). Its address is its place in the table; its pinned flag is derived (R12). -/
structure Entry where
  lease : Lease
  evict : EvictDue
  conflicts : Byte
  mark : Bool
  deriving DecidableEq, Repr

/-- One class of the class table (R51). -/
structure ClassConfig where
  term : Half
  probes : Fin 4
  snoop : Bool
  deriving DecidableEq, Repr

/-- The timing set (R53): offer and probe timeout in milliseconds, quarantine period and adoption window in seconds. -/
structure Timing where
  offer : Half
  probe : Half
  quarantine : Half
  window : Half
  deriving DecidableEq, Repr

/-- The lease engine (1.3 of the introduction). `window` is the closing point while the adoption window is open (R87). -/
structure LeaseEngine where
  ready : Bool
  table : Vector Entry 112
  freeList : List Pool
  slots : Vector (Option OfferSlot) 8
  classes : Vector ClassConfig 4
  timing : Timing
  clock : LeaseTime
  window : Option LeaseTime
  deriving DecidableEq, Repr

/-! ### Bus engine -/

/-- Reason of a REFUSE (10.3). -/
inductive RefuseReason where
  | poolEmpty
  | offersFull
  | badClass
  | noOffer
  | noLease
  | revoked
  deriving DecidableEq, Repr

/-- Result of a RESOLVE (R80). -/
inductive ResolveResult where
  | live
  | stale
  | boundAbsent
  | unknown
  deriving DecidableEq, Repr

/-- The seven lease states by name (R2). -/
inductive LeaseState where
  | free
  | offered
  | live
  | stale
  | quarantine
  | reserved
  | withheld
  deriving DecidableEq, Repr

/-- State summary of a WHOIS answer (R81); none is OUTSIDE. -/
abbrev Summary := Option LeaseState

/-- A message that the part builds (R120). -/
inductive Message where
  | offer (tag : Tag) (addr : Pool) (cls : ClassId) (term : Half)
  | grant (dest : Pool) (tag : Tag) (cls : ClassId) (term : Half)
  | refuse (dest : Byte) (tag : Tag) (reason : RefuseReason)
  | answerResolve (dest : Byte) (query : Tag) (result : ResolveResult) (addr : Byte)
  | answerWhois (dest : Byte) (addr : Byte) (summary : Summary) (tag : Tag)
  | probe (dest : Pool) (tag : Tag)
  | evict (dest : Pool) (tag : Tag) (reason : EvictReason)
  deriving DecidableEq, Repr

/-- The payload fields of an accepted request (R107, 5.9). -/
inductive Request where
  | join (tag : Tag) (cls : Byte) (hint : Byte)
  | claim (tag : Tag) (addr : Byte)
  | renew (tag : Tag) (cls : Byte)
  | release (tag : Tag)
  | resolve (query : Tag)
  | whois (addr : Byte)
  deriving DecidableEq, Repr

/-- A report of the bus engine that the lease engine has not yet taken (R109). An outcome is a completion or a drop. -/
inductive Report where
  | request (src : Byte) (r : Request)
  | snoop (src : Pool)
  | outcome (m : Message) (acked : Bool)
  deriving DecidableEq, Repr

/-- How quiet the bus is while the engine is IDLE (R102): busy until both lines have been high for the idle gap; idle
since a STOP; idle for the idle gap. -/
inductive Quiet where
  | settling
  | stopped
  | gap
  deriving DecidableEq, Repr

/-- How far a reception has come: listening (with the bits already seen while the part was sending, R105), not interpreted
after a length above 12 (R101), or past the acknowledge slot (with whether the part drove it, R100). -/
inductive Reception where
  | listening (seen : List Bool)
  | ignoring
  | slotPassed (acked : Bool)
  deriving DecidableEq, Repr

/-- The transceiver state (R103). SENDING holds the bytes of the transaction and whether its slot has passed. -/
inductive Engine where
  | idle (quiet : Quiet)
  | receiving (rx : Reception)
  | sending (bytes : List Byte) (slotPassed : Bool)
  | fault
  deriving DecidableEq, Repr

/-- Where the current message stands: at the head of the outbound queue, or, a notice, in the engine (R114, R115). -/
inductive Source where
  | head
  | notice (m : Message)
  deriving DecidableEq, Repr

/-- The current message and its attempt count (R114, R116). -/
structure Current where
  source : Source
  attempts : Nat
  deriving DecidableEq, Repr

/-- What the part puts on the bus when a Restart cuts its transmission (R122): the bytes, whether an acknowledge slot
follows them before the STOP, and whether the part withdraws from it to another sender. -/
structure Cut where
  bytes : List Byte
  slot : Bool
  outbid : Bool
  deriving DecidableEq, Repr

/-- The watch on the two lines (R118): stopped in FAULT, and otherwise started, with the milliseconds for which a line is
counted to have been low without a break. The levels of the lines are outside the part, and STUCK_BUS is the command that
brings a low time beyond the limit, so no other command adds to the count (log 23). -/
inductive Watch where
  | stopped
  | started (low : Nat)
  deriving DecidableEq, Repr

/-- The bus engine (chapter 5). `fast` is the strap as sampled: 400 kbit/s (R97). -/
structure BusEngine where
  engine : Engine
  fast : Bool
  queue : List Message
  current : Option Current
  reports : List Report
  watch : Watch
  lastCut : Option Cut
  deriving DecidableEq, Repr

/-! ### Binding store -/

/-- A binding (6.1). -/
structure Binding where
  tag : Tag
  addr : Pool
  cls : ClassId
  deriving DecidableEq, Repr

/-- A pending change (R124). After of an Unbind is empty, its Before is a binding. -/
inductive Change where
  | bind (slot : BindSlot) (before : Option Binding) (after : Binding) (superseded : Option Pool)
  | unbind (slot : BindSlot) (before : Binding)
  deriving DecidableEq, Repr

/-- The step of a rewrite that is in progress (R138 to R140). -/
inductive RewriteStep where
  | program
  | mark
  | eraseTarget
  | eraseOld (retry : Bool)
  deriving DecidableEq, Repr

/-- A rewrite in flight (6.7): the change it saves, its target, the sequence number it writes, and its step. -/
structure Rewrite where
  change : Change
  target : SectorId
  seq : Half
  step : RewriteStep
  deriving DecidableEq, Repr

/-- How far the start-up scan has come (6.9): not begun while RESET_N is low; erasing, with the sectors still to erase;
repairing, with the logical sectors still to repair and the targets already tried for the first of them. -/
inductive ScanStage where
  | notBegun
  | erasing (todo : List SectorId)
  | repairing (todo : List LogicalId) (tried : List SectorId)
  deriving DecidableEq, Repr

/-- The scan: its stage, whether it is noted inconsistent, and whether any sector was erased or marked bad (R146 to R149). -/
structure ScanProgress where
  stage : ScanStage
  inconsistent : Bool
  touched : Bool
  deriving DecidableEq, Repr

/-- The store state (R128). -/
inductive StoreMode where
  | scanning (p : ScanProgress)
  | ready
  | rewriting (r : Rewrite)
  | degraded
  deriving DecidableEq, Repr

/-- Outcome of a rewrite (R129). -/
inductive RewriteOutcome where
  | done
  | doneNoSpare
  | failed
  deriving DecidableEq, Repr

/-- Outcome of a scan (R129). -/
inductive ScanOutcome where
  | clean
  | recovered
  | inconsistent
  deriving DecidableEq, Repr

/-- The last-result record: operation, tag where it has one, outcome (R129). -/
inductive LastResult where
  | none
  | scan (outcome : ScanOutcome)
  | bind (tag : Tag) (outcome : RewriteOutcome)
  | unbind (tag : Tag) (outcome : RewriteOutcome)
  deriving DecidableEq, Repr

/-- The binding store (chapter 6): the flash, the shadow, the store state with the pending change, the sector map (R127)
and the last-result record. -/
structure Store where
  flash : Vector Sector 5
  shadow : Vector (Option Binding) 32
  mode : StoreMode
  current : Vector (Option (SectorId × Half)) 4
  erased : Vector Bool 5
  bad : Vector Bool 5
  last : LastResult
  deriving DecidableEq, Repr

/-! ### Host port and attention unit -/

/-- The nineteen request codes (chapter 8). -/
inductive RequestCode where
  | nop
  | ident
  | status
  | acknowledge
  | enable
  | lookupAddress
  | lookupTag
  | scan
  | freeList
  | revoke
  | withhold
  | classSet
  | classGet
  | timingSet
  | timingGet
  | bind
  | unbind
  | bindingRead
  | restart
  deriving DecidableEq, Repr

/-- The status of a reply (10.4). -/
inductive ReplyStatus where
  | ok
  | notFound
  | refused
  | busy
  | badParam
  | starting
  | checkError
  | frameError
  | unknown
  deriving DecidableEq, Repr

/-- A reply as the port holds it (R153). -/
structure Reply where
  status : ReplyStatus
  echo : Byte
  data : List Byte
  deriving DecidableEq, Repr

/-- The reply buffer (7.3). PENDING holds the request that its owner is executing (R157). -/
inductive Buffer where
  | empty
  | pending (code : RequestCode) (params : List Byte)
  | ready (r : Reply)
  deriving DecidableEq, Repr

/-- The SPI mode of a frame (R150). -/
inductive SpiMode where
  | mode0
  | mode3
  deriving DecidableEq, Repr

/-- What goes out on HSDO for a whole frame (R153, R154). -/
inductive FrameOut where
  | idleFill
  | filler
  | reply (r : Reply)
  deriving DecidableEq, Repr

/-- A frame in progress (R150). -/
structure Frame where
  mode : SpiMode
  out : FrameOut
  deriving DecidableEq, Repr

/-- The host port (chapter 7). -/
structure HostPort where
  hselLow : Bool
  frame : Option Frame
  buffer : Buffer
  deriving DecidableEq, Repr

/-- The seven latched cause flags (R186). CHANGE has no storage (R187). -/
structure Latched where
  start : Bool
  conflict : Bool
  exhaust : Bool
  busFault : Bool
  rival : Bool
  store : Bool
  port : Bool
  deriving DecidableEq, Repr

/-- The attention unit (chapter 9): latched flags and the enables in cause flag positions (R188). -/
structure Attention where
  latched : Latched
  enables : Byte
  deriving DecidableEq, Repr

/-! ### The whole part -/

/-- Supply and RESET_N: no supply, held in reset, or running (R121, R145, R151). -/
inductive Power where
  | off
  | held
  | running
  deriving DecidableEq, Repr

/-- The state. `pending` is the queue of waiting commands, oldest first. -/
structure State where
  pending : List Instr
  power : Power
  lease : LeaseEngine
  bus : BusEngine
  store : Store
  port : HostPort
  att : Attention
  deriving DecidableEq, Repr

/-- Faults that stop the machine: none. No command of the IW4112 stops it; what the spec calls a fault is an effect on the
state (R118). Nothing raises one, which is safe. -/
inductive Fault where
  deriving DecidableEq, Repr

/-- Refusals. -/
inductive Refusal where
  /-- Raised by an arm of exec for a command that has no meaning yet, by its mnemonic; no arm raises it. Safe. -/
  | notModelled (mnemonic : String)
  deriving DecidableEq, Repr

/-! ### Reset values -/

/-- An entry with nothing in it (R15). -/
def Entry.blank (l : Lease) : Entry := ⟨l, .absent, 0, false⟩

/-- The defaults of the class table (3.2, R51). -/
def classDefaults : Vector ClassConfig 4 := #v[⟨600, 2, true⟩, ⟨60, 1, true⟩, ⟨3600, 2, false⟩, ⟨65535, 3, false⟩]

/-- The defaults of the timing set (3.3, R53). -/
def timingDefaults : Timing := ⟨300, 2000, 30, 120⟩

/-- The lease engine from a hard reset until the scan ends: not ready, the clock at 0, and the reading of R167 in the
fields (R15, R34, R49). -/
def LeaseEngine.notReady : LeaseEngine :=
  { ready := false
    table := Vector.replicate 112 (Entry.blank (.free none))
    freeList := List.finRange 112
    slots := Vector.replicate 8 none
    classes := classDefaults
    timing := timingDefaults
    clock := 0
    window := none }

/-- The bus engine after a hard reset with the strap as sampled, its watch started with no low time counted (R121). -/
def BusEngine.afterReset (fast : Bool) : BusEngine :=
  { engine := .idle .settling
    fast := fast
    queue := []
    current := none
    reports := []
    watch := .started 0
    lastCut := none }

/-- The binding store from a hard reset until the scan begins, over a flash that keeps its content (R123, R125, R129). -/
def Store.afterReset (flash : Vector Sector 5) : Store :=
  { flash := flash
    shadow := Vector.replicate 32 none
    mode := .scanning ⟨.notBegun, false, false⟩
    current := Vector.replicate 4 none
    erased := Vector.replicate 5 false
    bad := Vector.replicate 5 false
    last := .none }

/-- No latched flag set (R191). -/
def Latched.clear : Latched := ⟨false, false, false, false, false, false, false⟩

/-- The attention unit after a hard reset: flags clear, the enable of START alone (R191). -/
def Attention.afterReset : Attention := ⟨.clear, 0x01⟩

/-- The machine right after a hard reset: RESET_N has just been released and the start-up scan has classified the five
sectors. The flash is erased (log 3), so the scan has nothing to erase; HSEL_N is high and the strap was low (log 4). -/
def State.reset : State :=
  { pending := []
    power := .running
    lease := .notReady
    bus := .afterReset false
    store :=
      { Store.afterReset (Vector.replicate 5 ⟨.blank, false, Vector.replicate 8 .blank⟩) with
        mode := .scanning ⟨.erasing [], false, false⟩
        erased := Vector.replicate 5 true }
    port := { hselLow := false, frame := none, buffer := .empty }
    att := .afterReset }

end Sys2Proof.Machine
end

