-- ==== Sys2Proof/Machine/Flags.lean ====
section
/-! DEFINITION. Readings that have no storage of their own: bindings and the pinned flag (R12), CHANGE and the cause flags
(R186, R187), ATN_N (R189), the occupancy of the outbound queue (R112), the readings of an entry. -/

namespace Sys2Proof.Machine

/-! ### Entries -/

/-- The entry of a pool address (R2). -/
def State.entry (s : State) (p : Pool) : Entry := s.lease.table[p]

/-- The lease of a pool address. -/
def State.leaseOf (s : State) (p : Pool) : Lease := (s.entry p).lease

/-- The name of a lease state (R2). -/
def Lease.state : Lease → LeaseState
  | .free _ => .free
  | .offered _ _ _ => .offered
  | .live _ _ _ => .live
  | .stale _ _ _ _ => .stale
  | .quarantine _ _ => .quarantine
  | .reserved => .reserved
  | .withheld => .withheld

/-- The entry is FREE. -/
def Lease.isFree (l : Lease) : Bool := l.state == .free

/-- The holder tag: present in OFFERED, LIVE and STALE (R3). -/
def Lease.holder : Lease → Option Tag
  | .offered t _ _ => some t
  | .live t _ _ => some t
  | .stale t _ _ _ => some t
  | .free _ => none
  | .quarantine _ _ => none
  | .reserved => none
  | .withheld => none

/-- The class: present in OFFERED, LIVE and STALE (R3). -/
def Lease.cls : Lease → Option ClassId
  | .offered _ c _ => some c
  | .live _ c _ => some c
  | .stale _ c _ _ => some c
  | .free _ => none
  | .quarantine _ _ => none
  | .reserved => none
  | .withheld => none

/-- The last holder: present in QUARANTINE, possibly in FREE (R4). -/
def Lease.last : Lease → Option Tag
  | .free l => l
  | .quarantine l _ => some l
  | .offered _ _ _ => none
  | .live _ _ _ => none
  | .stale _ _ _ _ => none
  | .reserved => none
  | .withheld => none

/-- The deadline: present in LIVE and QUARANTINE (R5). -/
def Lease.deadline : Lease → Option LeaseTime
  | .live _ _ d => some d
  | .quarantine _ d => some d
  | .free _ => none
  | .offered _ _ _ => none
  | .stale _ _ _ _ => none
  | .reserved => none
  | .withheld => none

/-- The entry is STALE with a PROBE due (R6). -/
def Lease.probeDue : Lease → Bool
  | .stale _ _ _ .due => true
  | _ => false

/-- The offer slot that an OFFERED entry names (R6). -/
def Lease.slot : Lease → Option SlotId
  | .offered _ _ k => some k
  | _ => none

/-- The evict due flag of a lease record: waiting or in transmission (R93). -/
def EvictDue.isSet : EvictDue → Bool
  | .absent => false
  | .waiting _ _ => true
  | .sending _ _ => true

/-- The notice is waiting to be collected (R93). -/
def EvictDue.isWaiting : EvictDue → Bool
  | .waiting _ _ => true
  | _ => false

/-- The notice is in transmission (R93). -/
def EvictDue.isSending : EvictDue → Bool
  | .sending _ _ => true
  | _ => false

/-- The entry that a tag holds in OFFERED, LIVE or STALE; at most one does (R3). -/
def State.holding (s : State) (t : Tag) : Option Pool :=
  pools.find? fun p => (s.leaseOf p).holder == some t

/-- Some entry in OFFERED, LIVE or STALE has the tag as holder ("T holds an entry", 3.4). -/
def State.holdsEntry (s : State) (t : Tag) : Bool := (s.holding t).isSome

/-- An entry other than `a` that a tag holds. -/
def State.otherHolding (s : State) (t : Tag) (a : Pool) : Option Pool :=
  pools.find? fun p => p != a && (s.leaseOf p).holder == some t

/-- The lowest QUARANTINE entry whose last holder is the tag (R28). -/
def State.quarantinedFor (s : State) (t : Tag) : Option Pool :=
  pools.find? fun p => (s.leaseOf p).state == .quarantine && (s.leaseOf p).last == some t

/-- The lowest FREE entry whose last holder is the tag (R30). -/
def State.freeFor (s : State) (t : Tag) : Option Pool :=
  pools.find? fun p => (s.leaseOf p).isFree && (s.leaseOf p).last == some t

/-- The number of entries in a state (R2, R166). -/
def State.count (s : State) (k : LeaseState) : Nat :=
  pools.countP fun p => (s.leaseOf p).state == k

/-- The entries whose change mark is set, in ascending order (R193). -/
def State.marked (s : State) : List Pool := pools.filter fun p => (s.entry p).mark

/-- The lowest-numbered empty offer slot (R32). -/
def State.freeSlot (s : State) : Option SlotId :=
  (List.finRange 8).find? fun k => (s.lease.slots[k]).isNone

/-- The offer slot whose tag and address match, found through the entry that names it (R34). -/
def State.offerOn (s : State) (t : Tag) (p : Pool) : Option (SlotId × OfferSlot) :=
  match s.leaseOf p with
  | .offered _ _ k =>
    match s.lease.slots[k] with
    | some o => if o.tag = t ∧ o.addr = p then some (k, o) else none
    | none => none
  | _ => none

/-! ### Bindings -/

/-- The shadow slot of a tag's binding (R123). -/
def Store.slotOf (st : Store) (t : Tag) : Option BindSlot :=
  (List.finRange 32).find? fun k =>
    match st.shadow[k] with
    | some b => b.tag == t
    | none => false

/-- The shadow's binding of a tag (R123). -/
def Store.bindingOf (st : Store) (t : Tag) : Option Binding :=
  (st.slotOf t).bind fun k => st.shadow[k]

/-- The shadow's binding that names an address (R12). -/
def Store.bindingAt (st : Store) (p : Pool) : Option Binding :=
  st.shadow.toList.reduceOption.find? fun b => b.addr == p

/-- The address that a pending move is leaving (R12, R124). -/
def Store.superseded (st : Store) : Option Pool :=
  match st.mode with
  | .rewriting r =>
    match r.change with
    | .bind _ _ _ b => b
    | .unbind _ _ => none
  | _ => none

/-- The pinned flag of an address: named by a binding in the shadow, or the superseded address of a move in flight (R12). -/
def Store.pinned (st : Store) (p : Pool) : Bool :=
  (st.bindingAt p).isSome || st.superseded == some p

/-- The number of occupied shadow slots (R123). -/
def Store.bindingCount (st : Store) : Nat := st.shadow.toList.reduceOption.length

/-- The lowest-numbered empty shadow slot (R124). -/
def Store.emptySlot (st : Store) : Option BindSlot :=
  (List.finRange 32).find? fun k => (st.shadow[k]).isNone

/-- The erased count (R127). -/
def Store.erasedCount (st : Store) : Nat := (List.finRange 5).countP fun k => st.erased[k]

/-- The lowest-numbered sector of the erased set (R138). -/
def Store.lowestErased (st : Store) : Option SectorId := (List.finRange 5).find? fun k => st.erased[k]

/-- The logical sector of a shadow slot (R123). -/
def logicalOf (k : BindSlot) : LogicalId := ⟨k.val / 8, by omega⟩

/-- The shadow slot at a position of a logical sector (R123). -/
def shadowSlot (l : LogicalId) (i : Fin 8) : BindSlot := ⟨8 * l.val + i.val, by omega⟩

/-! ### Outbound places -/

/-- The kind of a request needs an outbound place: every kind but RELEASE (R107). -/
def Request.needsPlace : Request → Bool
  | .join _ _ _ => true
  | .claim _ _ => true
  | .renew _ _ => true
  | .release _ => false
  | .resolve _ => true
  | .whois _ => true

/-- The report holds a reservation: an accepted request of a kind that needs a place, not yet taken (R108). -/
def Report.holdsPlace : Report → Bool
  | .request _ r => r.needsPlace
  | .snoop _ => false
  | .outcome _ _ => false

/-- The number of reserved places (R108). -/
def BusEngine.reserved (b : BusEngine) : Nat := b.reports.countP Report.holdsPlace

/-- The queue has a place that is neither occupied nor reserved (R107, R113). -/
def BusEngine.hasPlace (b : BusEngine) : Bool := decide (b.queue.length + b.reserved < Config.outboundPlaces)

/-- The message that the engine is trying to send (R114). -/
def BusEngine.currentMessage (b : BusEngine) : Option Message :=
  match b.current with
  | some ⟨.head, _⟩ => b.queue.head?
  | some ⟨.notice m, _⟩ => some m
  | none => none

/-! ### Cause flags -/

/-- The level of CHANGE: at least one change mark is set (R187). -/
def State.changeLevel (s : State) : Bool := pools.any fun p => (s.entry p).mark

/-- A flag as a bit at a position. -/
def flagBit (b : Bool) (i : Nat) : Byte := if b then (1 : Byte) <<< i else 0

/-- The cause flags in their positions (10.4): PORT, STORE, RIVAL, BUSFAULT, EXHAUST, CONFLICT, CHANGE, START. -/
def causeByte (f : Latched) (change : Bool) : Byte :=
  flagBit f.port 7 ||| flagBit f.store 6 ||| flagBit f.rival 5 ||| flagBit f.busFault 4 |||
    flagBit f.exhaust 3 ||| flagBit f.conflict 2 ||| flagBit change 1 ||| flagBit f.start 0

/-- The eight cause flags as a request taken now reads them (R186). -/
def State.causeFlags (s : State) : Byte := causeByte s.att.latched s.changeLevel

/-- ATN_N is driven low: some cause flag and its enable are both set, and the part is not held in reset (R189). -/
def State.atnLow (s : State) : Bool :=
  s.power == .running && (s.causeFlags &&& s.att.enables) != 0

/-- The latched flags after an Acknowledge with a mask: each named one cleared (R190). -/
def Latched.acknowledge (f : Latched) (mask : Byte) : Latched :=
  { start := f.start && !mask.getLsbD 0
    conflict := f.conflict && !mask.getLsbD 2
    exhaust := f.exhaust && !mask.getLsbD 3
    busFault := f.busFault && !mask.getLsbD 4
    rival := f.rival && !mask.getLsbD 5
    store := f.store && !mask.getLsbD 6
    port := f.port && !mask.getLsbD 7 }

end Sys2Proof.Machine
end

