-- ==== Sys2Proof/Machine/Formats.lean ====
section
/-! DEFINITION. Chapter 10: the codes and byte layouts of node-bus messages, host frames and reply data records, and the
reading of a received transaction as a request (R107). -/

namespace Sys2Proof.Machine

/-! ### Codes -/

/-- Lease state codes (10.5). -/
def LeaseState.code : LeaseState → Byte
  | .free => 0x00
  | .offered => 0x01
  | .live => 0x02
  | .stale => 0x03
  | .quarantine => 0x04
  | .reserved => 0x05
  | .withheld => 0x06

/-- WHOIS state summary codes (10.3). -/
def summaryCode : Summary → Byte
  | some k => k.code
  | none => 0x07

/-- REFUSE reason codes (10.3). -/
def RefuseReason.code : RefuseReason → Byte
  | .poolEmpty => 0x01
  | .offersFull => 0x02
  | .badClass => 0x03
  | .noOffer => 0x04
  | .noLease => 0x05
  | .revoked => 0x06

/-- EVICT reason codes (10.3). -/
def EvictReason.code : EvictReason → Byte
  | .admin => 0x01
  | .pinned => 0x02
  | .moved => 0x03

/-- RESOLVE result codes (10.3). -/
def ResolveResult.code : ResolveResult → Byte
  | .live => 0x02
  | .stale => 0x03
  | .boundAbsent => 0x08
  | .unknown => 0x09

/-- Reply status codes (10.4). -/
def ReplyStatus.code : ReplyStatus → Byte
  | .ok => 0x00
  | .notFound => 0x01
  | .refused => 0x02
  | .busy => 0x03
  | .badParam => 0x04
  | .starting => 0x05
  | .checkError => 0xE0
  | .frameError => 0xE1
  | .unknown => 0xE2

/-- Reasons of a REFUSED reply (10.4). -/
inductive RefusedReason where
  | held
  | pinned
  | withheld
  | full
  | degraded
  | nothing
  deriving DecidableEq, Repr

/-- Reason codes of a REFUSED reply (10.4). -/
def RefusedReason.code : RefusedReason → Byte
  | .held => 0x01
  | .pinned => 0x02
  | .withheld => 0x03
  | .full => 0x04
  | .degraded => 0x05
  | .nothing => 0x06

/-- Request codes (10.4). -/
def RequestCode.byte : RequestCode → Byte
  | .nop => 0x00
  | .ident => 0x01
  | .status => 0x02
  | .acknowledge => 0x03
  | .enable => 0x04
  | .lookupAddress => 0x10
  | .lookupTag => 0x11
  | .scan => 0x12
  | .freeList => 0x13
  | .revoke => 0x20
  | .withhold => 0x21
  | .classSet => 0x30
  | .classGet => 0x31
  | .timingSet => 0x32
  | .timingGet => 0x33
  | .bind => 0x40
  | .unbind => 0x41
  | .bindingRead => 0x42
  | .restart => 0x7E

/-- The nineteen request codes. -/
def allRequests : List RequestCode :=
  [.nop, .ident, .status, .acknowledge, .enable, .lookupAddress, .lookupTag, .scan, .freeList, .revoke, .withhold,
    .classSet, .classGet, .timingSet, .timingGet, .bind, .unbind, .bindingRead, .restart]

/-- The request that a code byte names, if it is one of the nineteen (R156). -/
def requestOfByte (b : Byte) : Option RequestCode := allRequests.find? fun c => c.byte == b

/-- The request passes the starting gate while the lease engine is not ready (R157). -/
def RequestCode.passesGate : RequestCode → Bool
  | .nop => true
  | .ident => true
  | .status => true
  | _ => false

/-! ### Node-bus messages -/

/-- Destination of a message (R120). -/
def Message.dest : Message → Byte
  | .offer _ _ _ _ => Config.joinAddress
  | .grant d _ _ _ => poolByte d
  | .refuse d _ _ => d
  | .answerResolve d _ _ _ => d
  | .answerWhois d _ _ _ => d
  | .probe d _ => poolByte d
  | .evict d _ _ => poolByte d

/-- Kind code of a message (5.9). -/
def Message.kind : Message → Byte
  | .offer _ _ _ _ => 0x21
  | .grant _ _ _ _ => 0x22
  | .refuse _ _ _ => 0x23
  | .answerResolve _ _ _ _ => 0x26
  | .answerWhois _ _ _ _ => 0x26
  | .probe _ _ => 0x24
  | .evict _ _ _ => 0x25

/-- Payload of a message (10.3, R199). -/
def Message.payload : Message → List Byte
  | .offer t a c m => tagBytes t ++ [poolByte a, byteOf c.val] ++ halfBytes m
  | .grant _ t c m => tagBytes t ++ [byteOf c.val] ++ halfBytes m
  | .refuse _ t r => tagBytes t ++ [r.code]
  | .answerResolve _ q r a => tagBytes q ++ [r.code, a]
  | .answerWhois _ a k t => [a, summaryCode k] ++ tagBytes t
  | .probe _ t => tagBytes t
  | .evict _ t r => tagBytes t ++ [r.code]

/-- The whole transaction that carries a message, from destination to check (R99, R120, R199). -/
def Message.bytes (m : Message) : List Byte :=
  withCheck ([m.dest, Config.authority, m.kind, byteOf m.payload.length] ++ m.payload)

/-- The message is a GRANT, a REFUSE or an ANSWER, whose outcome has no effect (R117). -/
def Message.isPlainReply : Message → Bool
  | .grant _ _ _ _ => true
  | .refuse _ _ _ => true
  | .answerResolve _ _ _ _ => true
  | .answerWhois _ _ _ _ => true
  | .offer _ _ _ _ => false
  | .probe _ _ => false
  | .evict _ _ _ => false

/-- The request that a payload spells under its kind, where the length is that of the kind, the source is permitted and the
tag is valid: conditions 2 to 5 of R107 (5.5, 10.3). -/
def requestOf (src kind : Byte) (payload : List Byte) : Option Request :=
  let tag := tagOfBytes (payload.take 6)
  let fromJoin := src == Config.joinAddress
  let fromPool := (poolOfByte src).isSome
  let fromAny := decide (2 ≤ src.toNat ∧ src.toNat < 128)
  match kind.toNat, payload.drop 6 with
  | 0x11, [c, h] => if fromJoin && validTag tag then some (.join tag c h) else none
  | 0x12, [a] => if fromJoin && validTag tag then some (.claim tag a) else none
  | 0x13, [c] => if fromPool && validTag tag then some (.renew tag c) else none
  | 0x14, [] => if payload.length = 6 ∧ fromPool ∧ validTag tag then some (.release tag) else none
  | 0x15, [] => if payload.length = 6 ∧ fromAny ∧ validTag tag then some (.resolve tag) else none
  | 0x16, [] =>
    match payload with
    | [a] => if fromAny then some (.whois a) else none
    | _ => none
  | _, _ => none

/-! ### Host frames and records -/

/-- A reply frame from status to check (R153, R200). -/
def Reply.bytes (r : Reply) : List Byte :=
  withCheck ([r.status.code, r.echo, byteOf r.data.length] ++ r.data)

/-- The NOT_READY filler (R153). -/
def fillerBytes : List Byte := withCheck [0xFF, 0xFF, 0x00]

/-- The bytes that a frame's content starts with; 0xFF follows (R153). -/
def FrameOut.bytes : FrameOut → List Byte
  | .idleFill => []
  | .filler => fillerBytes
  | .reply r => r.bytes

/-- The byte that HSDO shifts out at a position of the frame (R153). -/
def hsdoByte (out : FrameOut) (i : Nat) : Byte := out.bytes.getD i 0xFF

/-- The lease record of an entry (R171, 10.5). -/
def State.leaseRecord (s : State) (p : Pool) : List Byte :=
  let e := s.entry p
  let l := e.lease
  let flags := flagBit (s.store.pinned p) 0 ||| flagBit e.mark 1 ||| flagBit l.holder.isSome 2 |||
    flagBit l.last.isSome 3 ||| flagBit l.probeDue 4 ||| flagBit e.evict.isSet 5
  let tag : Tag := ((l.holder <|> l.last).getD 0)
  let position15 : Byte :=
    match l with
    | .offered _ _ k => byteOf k.val
    | .stale _ _ n _ => byteOf n.val
    | _ => 0
  [poolByte p, l.state.code, flags, byteOf ((l.cls.map (·.val)).getD 0)] ++ tagBytes tag ++
    timeBytes (l.deadline.getD 0) ++ [e.conflicts, position15]

/-- The slot state code of a binding record (R183, 10.5): EMPTY, BOUND, BIND_PENDING, UNBIND_PENDING. -/
def Store.slotState (st : Store) (k : BindSlot) : Byte :=
  match st.mode with
  | .rewriting r =>
    match r.change with
    | .bind j _ _ _ => if j = k then 0x02 else if (st.shadow[k]).isSome then 0x01 else 0x00
    | .unbind j _ => if j = k then 0x03 else if (st.shadow[k]).isSome then 0x01 else 0x00
  | _ => if (st.shadow[k]).isSome then 0x01 else 0x00

/-- The binding record of a shadow slot (R183, 10.5). -/
def Store.bindingRecord (st : Store) (k : BindSlot) : List Byte :=
  match st.shadow[k] with
  | some b => [byteOf k.val, st.slotState k] ++ tagBytes b.tag ++ [poolByte b.addr, byteOf b.cls.val]
  | none => [byteOf k.val, st.slotState k] ++ tagBytes 0 ++ [0x00, 0x00]

/-- The store state code (10.5). -/
def StoreMode.code : StoreMode → Byte
  | .scanning _ => 0
  | .ready => 1
  | .rewriting _ => 2
  | .degraded => 3

/-- The bus engine state code (10.5). -/
def Engine.code : Engine → Byte
  | .idle _ => 0
  | .receiving _ => 1
  | .sending _ _ => 2
  | .fault => 3

/-- The outcome code of a rewrite (10.5). -/
def RewriteOutcome.code : RewriteOutcome → Byte
  | .done => 1
  | .doneNoSpare => 2
  | .failed => 3

/-- The outcome code of a scan (10.5). -/
def ScanOutcome.code : ScanOutcome → Byte
  | .clean => 4
  | .recovered => 5
  | .inconsistent => 6

/-- Operation and outcome of the last-result record in one byte (10.5). -/
def LastResult.code : LastResult → Byte
  | .none => 0
  | .scan o => (1 <<< 6) ||| o.code
  | .bind _ o => (2 <<< 6) ||| o.code
  | .unbind _ o => (3 <<< 6) ||| o.code

/-- Tag of the last-result record; zeros for NONE and SCAN (R166). -/
def LastResult.tag : LastResult → Tag
  | .none => 0
  | .scan _ => 0
  | .bind t _ => t
  | .unbind t _ => t

/-- The Status record (R166, R167, 10.5). While the lease engine is not ready its fields show the fixed reading of R167. -/
def State.statusRecord (s : State) : List Byte :=
  let counts : List Byte :=
    if s.lease.ready then
      [LeaseState.free, .offered, .live, .stale, .quarantine, .reserved, .withheld].map fun k => byteOf (s.count k)
    else [112, 0, 0, 0, 0, 0, 0]
  let window := s.lease.ready && s.lease.window.isSome
  let scanning : Bool :=
    match s.store.mode with
    | .scanning _ => true
    | _ => false
  let last := if scanning then LastResult.none else s.store.last
  [s.causeFlags, s.att.enables] ++ counts ++
    [(s.store.mode.code <<< 6) ||| flagBit window 5 ||| (s.bus.engine.code <<< 3),
      if scanning then 0 else byteOf s.store.erasedCount,
      if scanning then 0 else byteOf s.store.bindingCount] ++
    timeBytes (if s.lease.ready then s.lease.clock else 0) ++
    [byteOf s.bus.queue.length, last.code] ++ tagBytes last.tag

/-- The five bytes of Class Set and Class Get (R177, 10.5). -/
def State.classRecord (s : State) (c : ClassId) : List Byte :=
  let k := s.lease.classes[c]
  [byteOf c.val] ++ halfBytes k.term ++ [byteOf k.probes.val, if k.snoop then 1 else 0]

/-- The nine bytes of Timing Set and Timing Get (R179, 10.5). -/
def State.timingRecord (s : State) : List Byte :=
  let t := s.lease.timing
  halfBytes t.offer ++ halfBytes t.probe ++ halfBytes t.quarantine ++ halfBytes t.window ++
    [if s.lease.window.isSome then 1 else 0]

/-- The data of a Scan that returns some entries (R173, R193, R194). -/
def State.scanData (s : State) (chosen : List Pool) (more : Bool) : List Byte :=
  (byteOf chosen.length ||| flagBit more 7) ::
    chosen.flatMap fun p => [poolByte p, (s.leaseOf p).state.code]

/-- The data of a Free List from a start position (R174). -/
def State.freeListData (s : State) (start : Nat) : List Byte :=
  let part := (s.lease.freeList.drop start).take 16
  [byteOf s.lease.freeList.length, byteOf start, byteOf part.length] ++ part.map poolByte

end Sys2Proof.Machine
end

