-- ==== Sys2Proof/Machine/Ops.lean ====
section
/-! DEFINITION. The named operations over the state that the meanings share: updates of one block, cause flags, moves of a
lease entry with the free list and the offer slots, the outbound queue, the reports, and a host request taken by its
owner. -/

namespace Sys2Proof.Machine

/-- What a meaning answers. -/
abbrev Result := Host.Outcome State Fault Refusal

/-! ### Updates of one block -/

def State.withPending (s : State) (q : List Instr) : State := { s with pending := q }
def State.withPower (s : State) (p : Power) : State := { s with power := p }
def State.withLease (s : State) (l : LeaseEngine) : State := { s with lease := l }
def State.withBus (s : State) (b : BusEngine) : State := { s with bus := b }
def State.withStore (s : State) (st : Store) : State := { s with store := st }
def State.withPort (s : State) (p : HostPort) : State := { s with port := p }
def State.withAtt (s : State) (a : Attention) : State := { s with att := a }

/-! ### When an event can be taken -/

/-- An event of the running part; without supply or in reset nothing is taken (R121, R151; log 2). -/
def whenRunning (f : State → State) (s : State) : Result :=
  .next (if s.power = .running then f s else s)

/-- An event of the lease engine, which takes none before it is ready (R15; log 2). -/
def whenReady (f : State → State) (s : State) : Result :=
  .next (if s.power = .running ∧ s.lease.ready = true then f s else s)

/-! ### Attention unit -/

/-- The latched cause flags by name (R186). -/
inductive Cause where
  | start
  | conflict
  | exhaust
  | busFault
  | rival
  | store
  | port
  deriving DecidableEq, Repr

/-- Set one latched flag, whatever its enable (R186). -/
def Latched.set (f : Latched) : Cause → Latched
  | .start => { f with start := true }
  | .conflict => { f with conflict := true }
  | .exhaust => { f with exhaust := true }
  | .busFault => { f with busFault := true }
  | .rival => { f with rival := true }
  | .store => { f with store := true }
  | .port => { f with port := true }

/-- Set one latched cause flag (R186). -/
def State.raise (s : State) (c : Cause) : State :=
  s.withAtt { s.att with latched := s.att.latched.set c }

/-! ### Lease entries -/

/-- Replace an entry. -/
def State.setEntry (s : State) (p : Pool) (e : Entry) : State :=
  s.withLease { s.lease with table := s.lease.table.set p e }

/-- Replace the fields of a lease without a change of its state: no mark (R10). -/
def State.setLease (s : State) (p : Pool) (l : Lease) : State :=
  s.setEntry p { s.entry p with lease := l }

/-- Set the change mark of an entry (R10). -/
def State.markEntry (s : State) (p : Pool) : State :=
  s.setEntry p { s.entry p with mark := true }

/-- Set the evict due field: the new notice is waiting (R7, R93). -/
def State.setEvict (s : State) (p : Pool) (t : Tag) (r : EvictReason) : State :=
  s.setEntry p { s.entry p with evict := .waiting t r }

/-- Fill or empty an offer slot (R34). -/
def State.putSlot (s : State) (k : SlotId) (o : Option OfferSlot) : State :=
  s.withLease { s.lease with slots := s.lease.slots.set k o }

/-- Where an address is inserted into the free list (R18). -/
inductive Place where
  | head
  | tail
  deriving DecidableEq, Repr

/-- The free list after an entry's lease changes: the address leaves it from wherever it stands, and joins it at the place
named if the new state is FREE (R17, R18, R19). -/
def moveInFreeList (fl : List Pool) (p : Pool) (old new : Lease) (place : Place) : List Pool :=
  let kept := if old.isFree then fl.erase p else fl
  if new.isFree then
    match place with
    | .head => p :: kept
    | .tail => kept ++ [p]
  else kept

/-- The offer slots after an entry's lease changes: a transition out of OFFERED empties the slot (R6, R34). -/
def emptiedSlots (slots : Vector (Option OfferSlot) 8) (old : Lease) : Vector (Option OfferSlot) 8 :=
  match old.slot with
  | some k => slots.set k none
  | none => slots

/-- A transition of an entry, whole (R9): the new lease, the free list, the slot it leaves, and the change mark (R10). Evict
due and the conflict count are kept (R7, R8). -/
def State.changeLease (s : State) (p : Pool) (l : Lease) (place : Place) : State :=
  s.withLease
    { s.lease with
      table := s.lease.table.set p { s.entry p with lease := l, mark := true }
      freeList := moveInFreeList s.lease.freeList p (s.leaseOf p) l place
      slots := emptiedSlots s.lease.slots (s.leaseOf p) }

/-- Lease time now plus a number of seconds (R49). -/
def State.nowPlus (s : State) (n : Nat) : LeaseTime := leaseTime (s.lease.clock.toNat + n)

/-- The term of a class as the class table now stands (R51). -/
def State.term (s : State) (c : ClassId) : Half := (s.lease.classes[c]).term

/-- The deadline of a lease of a class set now (R51). -/
def State.leaseDeadline (s : State) (c : ClassId) : LeaseTime := s.nowPlus (s.term c).toNat

/-- A transition into FREE, or into RESERVED if the entry is pinned (R13, R18). -/
def State.toFree (s : State) (p : Pool) (last : Option Tag) (place : Place) : State :=
  if s.store.pinned p then s.changeLease p .reserved .tail else s.changeLease p (.free last) place

/-- Entry to QUARANTINE, or to RESERVED if the entry is pinned; a quarantine period of 0 ends in the same event, with FREE
at the tail keeping the last holder (R13, R71, R72, R73). -/
def State.withdraw (s : State) (p : Pool) (last : Tag) : State :=
  if s.store.pinned p then s.changeLease p .reserved .tail
  else if s.lease.timing.quarantine = 0 then s.changeLease p (.free (some last)) .tail
  else s.changeLease p (.quarantine last (s.nowPlus s.lease.timing.quarantine.toNat)) .tail

/-- An entry ceases to be pinned: RESERVED goes to FREE at the tail without a last holder, a held entry stays; the mark is
set (R14). An address that is still pinned is left as it is. -/
def State.ceasePinned (s : State) (p : Pool) : State :=
  if s.store.pinned p then s
  else
    match s.leaseOf p with
    | .reserved => s.changeLease p (.free none) .tail
    | _ => s.markEntry p

/-- The lapse of an offer: to its return state as the pinned flag governs it (R13, R38). -/
def State.lapse (s : State) (p : Pool) (o : OfferSlot) : State :=
  match o.ret with
  | .free => s.toFree p none .head
  | .reserved => s.toFree p none .tail
  | .quarantine => s.withdraw p o.tag

/-- An unanswered probe: one less left, and due again, or the address withdrawn (R67). -/
def State.probeUnanswered (s : State) (p : Pool) : State :=
  match s.leaseOf p with
  | .stale t c n _ =>
    if 1 < n.val then s.setLease p (.stale t c (n - 1) .due) else s.withdraw p t
  | _ => s

/-- A conflict on an unheld entry: count, mark, CONFLICT, and a quarantine restarted (R83, R84). -/
def State.conflictOn (s : State) (p : Pool) : State :=
  let e := s.entry p
  let counted := (s.setEntry p { e with
    conflicts := if e.conflicts = 0xFF then 0xFF else e.conflicts + 1, mark := true }).raise .conflict
  match e.lease with
  | .quarantine last _ =>
    if s.lease.timing.quarantine = 0 then counted.toFree p (some last) .tail
    else counted.setLease p (.quarantine last (s.nowPlus s.lease.timing.quarantine.toNat))
  | _ => counted

/-! ### Outbound queue -/

/-- Put a message at the tail of the outbound queue (R112). -/
def State.enqueue (s : State) (m : Message) : State := s.withBus { s.bus with queue := s.bus.queue ++ [m] }

/-- The REFUSE(REVOKED) of a cancelled offer: only if a place is neither occupied nor reserved (R39, R96, R113). -/
def State.refuseRevoked (s : State) (t : Tag) : State :=
  if s.bus.hasPlace then s.enqueue (.refuse Config.joinAddress t .revoked) else s

/-- Pass a report to the lease engine, after those not yet taken (R109). -/
def State.report (s : State) (r : Report) : State := s.withBus { s.bus with reports := s.bus.reports ++ [r] }

/-- Take the oldest report, if it is one that is asked for (R109). A request's reservation ends with it (R108). -/
def State.takeReport (s : State) (wanted : Report → Bool) : Option State :=
  match s.bus.reports with
  | [] => none
  | r :: rest => if wanted r then some (s.withBus { s.bus with reports := rest }) else none

/-- The lease engine takes the oldest report where it is this request (R108, R109); otherwise the event cannot occur
(log 2). -/
def takeRequest (r : Report) (f : State → State) (s : State) : Result :=
  whenReady (fun s => match s.takeReport (fun x => x == r) with
    | some s' => f s'
    | none => s) s

/-- The lease engine takes the oldest report where it is a snoop report or an outcome that is asked for; before it is ready
it discards it (R15). -/
def takeNews (wanted : Report → Bool) (f : State → State) (s : State) : Result :=
  whenRunning (fun s => match s.takeReport wanted with
    | some s' => if s.lease.ready then f s' else s'
    | none => s) s

/-! ### Host requests -/

/-- What an owner returns: its state, a status, and data (R157). -/
structure Answer where
  state : State
  status : ReplyStatus
  data : List Byte
  deriving DecidableEq, Repr

def Answer.ok (s : State) (data : List Byte) : Answer := ⟨s, .ok, data⟩
def Answer.badParam (s : State) : Answer := ⟨s, .badParam, []⟩
def Answer.busy (s : State) : Answer := ⟨s, .busy, []⟩
def Answer.notFound (s : State) : Answer := ⟨s, .notFound, []⟩
def Answer.starting (s : State) : Answer := ⟨s, .starting, []⟩

/-- REFUSED carries its reason as one byte of data (R163). -/
def Answer.refused (s : State) (r : RefusedReason) : Answer := ⟨s, .refused, [r.code]⟩

/-- Put a reply into the buffer: it is READY (7.3). -/
def State.putReply (s : State) (r : Reply) : State := s.withPort { s.port with buffer := .ready r }

/-- The owner takes the request that the port has handed it, and the port builds the reply (R157). Where the buffer holds
no such request, the event cannot occur (log 2). -/
def serve (code : RequestCode) (params : List Byte) (own : State → Answer) (s : State) : Result :=
  whenRunning (fun s =>
    if s.port.buffer = .pending code params then
      let a := own s
      a.state.putReply ⟨a.status, code.byte, a.data⟩
    else s) s

/-- A request without parameters: BAD_PARAM if it carries any (R163). -/
def withoutParams (params : List Byte) (own : State → Answer) (s : State) : Answer :=
  if params = [] then own s else .badParam s

end Sys2Proof.Machine
end

