-- ==== Sys2Proof/Machine/Rewrite.lean ====
section
/-! DEFINITION. Chapter 6: sector images, the start and the steps of a rewrite, and its outcome with the late effects or the
rollback. -/

namespace Sys2Proof.Machine

/-! ### Images and sequence numbers -/

/-- A binding as a programmed slot (R125). -/
def slotCell : Option Binding → SlotCell
  | some b => .written b.tag (poolByte b.addr) (byteOf b.cls.val)
  | none => .blank

/-- The eight slots of a logical sector in a shadow (R123, R124). -/
def imageSlots (shadow : Vector (Option Binding) 32) (l : LogicalId) : Vector SlotCell 8 :=
  Vector.ofFn fun i => slotCell (shadow[shadowSlot l i])

/-- A programmed sector: header, valid mark or not yet, slots (R138). -/
def programmed (l : LogicalId) (q : Half) (mark : Bool) (slots : Vector SlotCell 8) : Sector :=
  ⟨.written (byteOf l.val) q, mark, slots⟩

/-- The sequence number that a rewrite of a logical sector writes (R126, R138). -/
def Store.nextSeq (st : Store) (l : LogicalId) : Half :=
  match st.current[l] with
  | some (_, q) => q + 1
  | none => 1

/-- A bad sector reads as a valid image of the logical sector, and the sequence number is not newer than its (R126). -/
def Store.outrun (st : Store) (l : LogicalId) (q : Half) : Bool :=
  (List.finRange 5).any fun k =>
    st.bad[k] &&
      match validImage (st.flash[k]) with
      | some (l', q') => l' == l && !newer q q'
      | none => false

/-- The remains of a cut erase where what is named as its reading is none: no part of them reads as programmed or blank
(R125; log 10). -/
def noPartReads : Sector := ⟨.unreadable, false, Vector.replicate 8 .unreadable⟩

/-- What a sector reads as after an erase that was cut off: its remains are partial, or, where the erase had not started to
act, the sector is as it was (R125, R145). It does not read as erased (log 10). -/
def eraseLeft (before reads : Sector) : Sector :=
  if classify reads = .partially then reads
  else if before = blankSector then noPartReads
  else before

/-- What a sector reads as after an erase that its read-back found wrong: a valid sector stays valid, with its header
(R140, R146; log 10). -/
def eraseFailed (before reads : Sector) : Sector :=
  if (validImage before).isSome then { reads with header := before.header, mark := before.mark }
  else eraseLeft before reads

/-- Write a physical sector. -/
def Store.setFlash (st : Store) (k : SectorId) (x : Sector) : Store := { st with flash := st.flash.set k x }

/-- An erase with its read-back: to the erased set, or to the bad set with what it reads as (R125). -/
def Store.eraseSector (st : Store) (k : SectorId) (reads : Sector) : Store :=
  if reads = blankSector then
    { st.setFlash k blankSector with erased := st.erased.set k true }
  else { st.setFlash k (eraseFailed (st.flash[k]) reads) with bad := st.bad.set k true }

/-! ### The pending change -/

/-- The slot of a pending change (R124). -/
def Change.slot : Change → BindSlot
  | .bind k _ _ _ => k
  | .unbind k _ => k

/-- The After content of a pending change (R124). -/
def Change.after : Change → Option Binding
  | .bind _ _ b _ => some b
  | .unbind _ _ => none

/-- The logical sector that the rewrite writes (R124). -/
def Rewrite.logical (r : Rewrite) : LogicalId := logicalOf r.change.slot

/-- The shadow as the image takes it: After in the changed slot (R124). -/
def Rewrite.slots (r : Rewrite) (st : Store) : Vector SlotCell 8 :=
  imageSlots (st.shadow.set r.change.slot r.change.after) r.logical

/-- The last-result record of an outcome (R141). -/
def Change.result (c : Change) (o : RewriteOutcome) : LastResult :=
  match c with
  | .bind _ _ b _ => .bind b.tag o
  | .unbind _ b => .unbind b.tag o

/-- A rewrite begins: READY to REWRITING, with the lowest erased sector as its target out of the erased set (R128, R131,
R136, R138 step 1, R142). -/
def Store.beginRewrite (st : Store) (c : Change) (target : SectorId) : Store :=
  { st with
    mode := .rewriting ⟨c, target, st.nextSeq (logicalOf c.slot), .program⟩
    erased := st.erased.set target false }

/-- The rewrite goes on to another step. -/
def Store.toStep (st : Store) (r : Rewrite) (step : RewriteStep) : Store :=
  { st with mode := .rewriting { r with step := step } }

/-! ### The outcome -/

/-- READY with an erased sector, DEGRADED without (R128, R141, R149). -/
def Store.settledMode (st : Store) : StoreMode := if 0 < st.erasedCount then .ready else .degraded

/-- The shadow after an outcome: late effect or rollback (R134, R135, R137). -/
def Change.settle (c : Change) (success : Bool) (shadow : Vector (Option Binding) 32) : Vector (Option Binding) 32 :=
  match c, success with
  | .bind _ _ _ _, true => shadow
  | .bind k before _ _, false => shadow.set k before
  | .unbind k _, true => shadow.set k none
  | .unbind _ _, false => shadow

/-- The address that an outcome may unpin: the superseded address of a move that succeeds, the new address of a Bind that
fails, the address of an Unbind that succeeds (R134, R135, R137). -/
def Change.unpins (c : Change) (success : Bool) : Option Pool :=
  match c, success with
  | .bind _ _ _ b, true => b
  | .bind _ _ b _, false => some b.addr
  | .unbind _ b, true => some b.addr
  | .unbind _ _, false => none

/-- The outcome of a rewrite, as one event (R141): shadow and lease table, the pending change, the store state, the
last-result record, STORE. -/
def State.rewriteOutcome (s : State) (r : Rewrite) (o : RewriteOutcome) : State :=
  let success := o != .failed
  let st := s.store
  let s' := s.withStore
    { st with
      shadow := r.change.settle success st.shadow
      mode := st.settledMode
      last := r.change.result o }
  let s'' := match r.change.unpins success with
    | some p => s'.ceasePinned p
    | none => s'
  s''.raise .store

/-- The target becomes the current sector of its logical sector (R138). -/
def Store.adoptTarget (st : Store) (r : Rewrite) : Store :=
  { st with current := st.current.set r.logical (some (r.target, r.seq)) }

/-- DONE, or DONE_NO_SPARE where the erased count is 0 after the superseded sector went bad (R140). -/
def Store.spareOutcome (st : Store) : RewriteOutcome := if st.erasedCount = 0 then .doneNoSpare else .done

/-! ### The commands -/

/-- IMAGE_PROGRAM: header and slots read back right, or the target is erased (R138 step 2, R139). -/
def execImageProgram (reads : Sector) (s : State) : Result :=
  whenRunning (fun s =>
    match s.store.mode with
    | .rewriting r =>
      if r.step = .program then
        let found : Sector := { reads with mark := false }
        let right := decide (found = programmed r.logical r.seq false (r.slots s.store))
        s.withStore ((s.store.setFlash r.target found).toStep r (if right then .mark else .eraseTarget))
      else s
    | _ => s) s

/-- VALID_MARK: the mark reads programmed, and the old image is erased or, without one, the rewrite is DONE; or the target
is erased (R138 steps 3 and 4, R139). -/
def execValidMark (reads : Bool) (s : State) : Result :=
  whenRunning (fun s =>
    match s.store.mode with
    | .rewriting r =>
      if r.step = .mark then
        if reads then
          let marked := s.store.setFlash r.target { s.store.flash[r.target] with mark := true }
          match s.store.current[r.logical] with
          | some _ => s.withStore (marked.toStep r (.eraseOld false))
          | none => (s.withStore (marked.adoptTarget r)).rewriteOutcome r .done
        else s.withStore (s.store.toStep r .eraseTarget)
      else s
    | _ => s) s

/-- TARGET_ERASE: the target returns to the erased set or goes to the bad set; the outcome is FAILED (R139). -/
def execTargetErase (reads : Sector) (s : State) : Result :=
  whenRunning (fun s =>
    match s.store.mode with
    | .rewriting r =>
      if r.step = .eraseTarget then
        (s.withStore (s.store.eraseSector r.target reads)).rewriteOutcome r .failed
      else s
    | _ => s) s

/-- The erase of the superseded sector succeeds: DONE (R138). -/
def State.oldErased (s : State) (r : Rewrite) (k : SectorId) : State :=
  (s.withStore ((s.store.eraseSector k blankSector).adoptTarget r)).rewriteOutcome r .done

/-- The retry of the erase fails: the superseded sector is bad and the change stands (R140). -/
def State.oldGoesBad (s : State) (r : Rewrite) (k : SectorId) (reads : Sector) : State :=
  let st := (s.store.eraseSector k reads).adoptTarget r
  (s.withStore st).rewriteOutcome r st.spareOutcome

/-- SUPERSEDED_ERASE: verified, tried once more, or failed for good (R138 step 4, R140). -/
def execSupersededErase (reads : Sector) (s : State) : Result :=
  whenRunning (fun s =>
    match s.store.mode with
    | .rewriting r =>
      match r.step, s.store.current[r.logical] with
      | .eraseOld retry, some (k, _) =>
        if reads = blankSector then s.oldErased r k
        else if retry then s.oldGoesBad r k reads
        else s.withStore ((s.store.setFlash k (eraseFailed (s.store.flash[k]) reads)).toStep r (.eraseOld true))
      | _, _ => s
    | _ => s) s

end Sys2Proof.Machine
end

