-- ==== Sys2Proof/Machine/Binding.lean ====
section
/-! DEFINITION. Sections 6.4, 6.6 and 8.9: Bind, Unbind and Binding Read. -/

namespace Sys2Proof.Machine

/-- A force byte, 0 or 1 (R130). -/
def forceOfByte (b : Byte) : Option Bool := if b = 0 then some false else if b = 1 then some true else none

/-- The parameters of a Bind: tag, address, class, force (R130 check 1, R181). -/
structure BindParams where
  tag : Tag
  addr : Pool
  cls : ClassId
  force : Bool
  deriving DecidableEq, Repr

/-- Nine parameter bytes as the parameters of a Bind, if every value is in range (R130 check 1). -/
def bindParamsOf (params : List Byte) : Option BindParams :=
  match params.drop 6 with
  | [a, c, f] =>
    let t := tagOfBytes (params.take 6)
    match validTag t, poolOfByte a, classOfByte c, forceOfByte f with
    | true, some p, some k, some force => some ⟨t, p, k, force⟩
    | _, _, _, _ => none
  | _ => none

/-- The slot that a Bind takes: that of the tag's binding, or the lowest empty one (R124). -/
def Store.bindSlot (st : Store) (t : Tag) : Option BindSlot := st.slotOf t <|> st.emptySlot

/-- The address that a Bind moves the tag away from (R124, R131). -/
def supersededBy (before : Option Binding) (a : Pool) : Option Pool :=
  match before with
  | some b => if b.addr = a then none else some b.addr
  | none => none

/-- The shadow binds the address to another tag (R130 check 3). -/
def Store.boundToOther (st : Store) (t : Tag) (a : Pool) : Bool :=
  (List.finRange 32).any fun k =>
    match st.shadow[k] with
    | some b => b.addr == a && b.tag != t
    | none => false

/-- The address is held by another tag (R130 check 6). -/
def State.heldByOther (s : State) (t : Tag) (a : Pool) : Bool :=
  match (s.leaseOf a).holder with
  | some h => h != t
  | none => false

/-- The mark that goes with a change of the pinned flag (R10, R132). -/
def State.markIfNewlyPinned (s : State) (a : Pool) (wasPinned : Bool) : State :=
  if wasPinned then s else s.markEntry a

/-- The early effect on the address of an accepted Bind (R132), where `wasPinned` is its pinned flag before acceptance. -/
def State.earlyEffect (s : State) (t : Tag) (a : Pool) (wasPinned : Bool) : State :=
  match s.leaseOf a with
  | .free _ => s.changeLease a .reserved .tail
  | .quarantine _ _ => s.changeLease a .reserved .tail
  | .reserved => s.markIfNewlyPinned a wasPinned
  | .withheld => s.markIfNewlyPinned a wasPinned
  | .offered h _ _ =>
    if h = t then s.markIfNewlyPinned a wasPinned
    else (s.changeLease a .reserved .tail).refuseRevoked h
  | .live h _ _ =>
    if h = t then s.markIfNewlyPinned a wasPinned
    else (s.setEvict a h .pinned).changeLease a .reserved .tail
  | .stale h _ _ _ =>
    if h = t then s.markIfNewlyPinned a wasPinned
    else (s.setEvict a h .pinned).changeLease a .reserved .tail

/-- The early effect on any other holding of the tag (R133). -/
def State.moveAway (s : State) (t : Tag) (a : Pool) : State :=
  match s.otherHolding t a with
  | none => s
  | some b =>
    match s.leaseOf b with
    | .offered _ _ _ => (s.withdraw b t).refuseRevoked t
    | _ => (s.setEvict b t .moved).withdraw b t

/-- The change that an accepted Bind makes pending (R124, R131). -/
def State.bindChange (s : State) (k : BindSlot) (b : BindParams) : Change :=
  .bind k (s.store.shadow[k]) ⟨b.tag, b.addr, b.cls⟩ (supersededBy (s.store.shadow[k]) b.addr)

/-- Acceptance of a Bind in a slot, with a target for its rewrite, as one event (R131). -/
def State.acceptBind (s : State) (k : BindSlot) (b : BindParams) (target : SectorId) : State :=
  let st := s.store.beginRewrite (s.bindChange k b) target
  let s' := s.withStore { st with shadow := st.shadow.set k (some ⟨b.tag, b.addr, b.cls⟩) }
  (s'.earlyEffect b.tag b.addr (s.store.pinned b.addr)).moveAway b.tag b.addr

/-- The checks of R130 from 2 on, and acceptance (R131). -/
def State.bind (s : State) (b : BindParams) : Answer :=
  match s.store.mode with
  | .scanning _ => .starting s
  | .rewriting _ => .busy s
  | .degraded => .refused s .degraded
  | .ready =>
    let slot := s.store.bindSlot b.tag
    if slot.any fun k => s.store.outrun (logicalOf k) (s.store.nextSeq (logicalOf k)) then .refused s .degraded
    else if s.store.boundToOther b.tag b.addr then .refused s .pinned
    else if s.leaseOf b.addr = .withheld then .refused s .withheld
    else
      match slot with
      | none => .refused s .full
      | some k =>
        if s.heldByOther b.tag b.addr ∧ b.force = false then .refused s .held
        else if s.store.shadow[k] = some ⟨b.tag, b.addr, b.cls⟩ then .ok s [byteOf k.val, 0x00]
        else
          match s.store.lowestErased with
          | none => .refused s .degraded
          | some target => .ok (s.acceptBind k b target) [byteOf k.val, 0x01]

/-- Bind by its owner (R130, R181). -/
def ownBind (params : List Byte) (s : State) : Answer :=
  match bindParamsOf params with
  | some b => s.bind b
  | none => .badParam s

/-- BIND (R130, R181). -/
def execBind (params : List Byte) (s : State) : Result :=
  serve .bind params (ownBind params) s

/-- The checks of R136 from 2 on, and acceptance. -/
def State.unbind (s : State) (t : Tag) : Answer :=
  match s.store.mode with
  | .scanning _ => .starting s
  | .rewriting _ => .busy s
  | .degraded => .refused s .degraded
  | .ready =>
    match s.store.slotOf t, s.store.bindingOf t with
    | some k, some b =>
      if s.store.outrun (logicalOf k) (s.store.nextSeq (logicalOf k)) then .refused s .degraded
      else
        match s.store.lowestErased with
        | none => .refused s .degraded
        | some target => .ok (s.withStore (s.store.beginRewrite (.unbind k b) target)) [byteOf k.val]
    | _, _ => .notFound s

/-- Unbind by its owner (R136, R182). -/
def ownUnbind (params : List Byte) (s : State) : Answer :=
  if params.length = 6 ∧ validTag (tagOfBytes params) = true then s.unbind (tagOfBytes params) else .badParam s

/-- UNBIND (R136, R182). -/
def execUnbind (params : List Byte) (s : State) : Result :=
  serve .unbind params (ownUnbind params) s

/-- Binding Read by its owner (R183). -/
def ownBindingRead (params : List Byte) (s : State) : Answer :=
  match params with
  | [b] => if h : b.toNat < 32 then .ok s (s.store.bindingRecord ⟨b.toNat, h⟩) else .badParam s
  | _ => .badParam s

/-- BINDING_READ (R183). -/
def execBindingRead (params : List Byte) (s : State) : Result :=
  serve .bindingRead params (ownBindingRead params) s

end Sys2Proof.Machine
end

