-- ==== Sys2Proof/Machine/Bus.lean ====
section
/-! DEFINITION. Chapter 5: the bus engine. Its states, its own transmissions with attempts and outcomes, the transactions it
receives, and the stuck bus. -/

namespace Sys2Proof.Machine

/-- Move the transceiver to a state (R103). -/
def State.setEngine (s : State) (e : Engine) : State := s.withBus { s.bus with engine := e }

/-! ### The current message -/

/-- The first entry with a notice waiting, from the lowest pool address upwards: evict due waiting, or STALE with probe due
(R115). -/
def State.noticeEntry (s : State) : Option Pool :=
  pools.find? fun p => (s.entry p).evict.isWaiting || (s.leaseOf p).probeDue

/-- Probe due is cleared as the bus engine takes the PROBE (R65). -/
def Lease.takeProbe : Lease → Lease
  | .stale t c n .due => .stale t c n .sending
  | l => l

/-- Take the notice of an entry: an EVICT before a PROBE; the field is in transmission, or probe due is cleared, and the
notice is the current message with no attempt counted (R93, R115). -/
def State.collectNotice (s : State) (p : Pool) : State :=
  let e := s.entry p
  match e.evict with
  | .waiting t r =>
    let s' := s.setEntry p { e with evict := .sending t r }
    s'.withBus { s'.bus with current := some ⟨.notice (.evict p t r), 0⟩ }
  | _ =>
    match e.lease with
    | .stale t _ _ .due =>
      let s' := s.setEntry p { e with lease := e.lease.takeProbe }
      s'.withBus { s'.bus with current := some ⟨.notice (.probe p t), 0⟩ }
    | _ => s

/-- The choice of a current message where the engine has none: the head of the queue, or a notice where the queue is empty
(R114). -/
def State.chooseCurrent (s : State) : State :=
  match s.bus.current with
  | some _ => s
  | none =>
    match s.bus.queue with
    | _ :: _ => s.withBus { s.bus with current := some ⟨.head, 0⟩ }
    | [] =>
      match s.noticeEntry with
      | some p => s.collectNotice p
      | none => s

/-- The current message reaches its outcome: a queued reply leaves the head of the queue, a notice ceases to be current, and
the outcome is reported (R117). -/
def State.outcome (s : State) (acked : Bool) : State :=
  match s.bus.currentMessage with
  | none => s.withBus { s.bus with current := none }
  | some m =>
    let queue := match s.bus.current with
      | some ⟨.head, _⟩ => s.bus.queue.tail
      | _ => s.bus.queue
    s.withBus { s.bus with
      queue := queue, current := none, reports := s.bus.reports ++ [.outcome m acked] }

/-- One attempt more for the current message; the eighth drops it (R116). -/
def State.countAttempt (s : State) : State :=
  match s.bus.current with
  | none => s
  | some c =>
    if c.attempts + 1 < Config.attemptLimit then
      s.withBus { s.bus with current := some { c with attempts := c.attempts + 1 } }
    else s.outcome false

/-- CURRENT_MESSAGE_CHOICE (R114, R115). In FAULT the engine sends nothing and leaves notices where they are (R119). -/
def execCurrentMessageChoice (s : State) : Result :=
  whenRunning (fun s => if s.bus.engine = .fault then s else s.chooseCurrent) s

/-! ### Sending -/

/-- OWN_START: with the bus idle for the idle gap and a message to send, a START and SENDING (R102, R104). -/
def execOwnStart (s : State) : Result :=
  whenRunning (fun s =>
    if s.bus.engine = .idle .gap then
      match s.chooseCurrent.bus.currentMessage with
      | some m => s.chooseCurrent.setEngine (.sending m.bytes false)
      | none => s
    else s) s

/-- ARBITRATION_LOST at a bit that the part sent as 1: it becomes a receiver of the rest, having seen the bits before it
and a 0 (R105). No attempt is counted. -/
def execArbitrationLost (bit : Nat) (s : State) : Result :=
  whenRunning (fun s =>
    match s.bus.engine with
    | .sending bytes false =>
      if (bitsOf bytes)[bit]? = some true then
        s.setEngine (.receiving (.listening ((bitsOf bytes).take bit ++ [false])))
      else s
    | _ => s) s

/-- OWN_TRANSMISSION_ACK: the completion of the current message (R116, R117). The STOP that follows is BUS_STOP (R103). -/
def execOwnTransmissionAck (s : State) : Result :=
  whenRunning (fun s =>
    match s.bus.engine with
    | .sending bytes false => (s.outcome true).setEngine (.sending bytes true)
    | _ => s) s

/-- The part's transmission is broken before its slot (R103, R116). -/
def State.brokenOff (s : State) (e : Engine) : State := s.countAttempt.setEngine e

/-- ATTEMPT: a NACK, or a break by another device's START or STOP; one attempt is counted (R103, R116). -/
def execAttempt (result : AttemptResult) (s : State) : Result :=
  whenRunning (fun s =>
    match s.bus.engine with
    | .sending bytes false =>
      match result with
      | .nack => s.brokenOff (.sending bytes true)
      | .brokenByStart => s.brokenOff (.receiving (.listening []))
      | .brokenByStop => s.brokenOff (.idle .stopped)
    | _ => s) s

/-! ### Conditions on the bus -/

/-- BUS_START_BY_OTHER (R101 to R103). While the bus counts as busy, and in FAULT, conditions are not received (R102,
R119). -/
def execBusStartByOther (s : State) : Result :=
  whenRunning (fun s =>
    match s.bus.engine with
    | .idle .settling => s
    | .idle .stopped => s.setEngine (.receiving (.listening []))
    | .idle .gap => s.setEngine (.receiving (.listening []))
    | .receiving _ => s.setEngine (.receiving (.listening []))
    | .sending _ false => s.brokenOff (.receiving (.listening []))
    | .sending _ true => s
    | .fault => s) s

/-- BUS_STOP: another device's, or the part's own after its slot (R102, R103). -/
def execBusStop (s : State) : Result :=
  whenRunning (fun s =>
    match s.bus.engine with
    | .idle .settling => s
    | .idle .stopped => s
    | .idle .gap => s.setEngine (.idle .stopped)
    | .receiving _ => s.setEngine (.idle .stopped)
    | .sending _ false => s.brokenOff (.idle .stopped)
    | .sending _ true => s.setEngine (.idle .stopped)
    | .fault => s) s

/-- BUS_IDLE_GAP: the bus counts as idle, and a receiving engine goes to IDLE (R101 to R103). -/
def execBusIdleGap (s : State) : Result :=
  whenRunning (fun s =>
    match s.bus.engine with
    | .idle _ => s.setEngine (.idle .gap)
    | .receiving _ => s.setEngine (.idle .gap)
    | .sending _ _ => s
    | .fault => s) s

/-- Where the engine goes when the transaction it receives is broken (R103). -/
def engineAfterBreak : Breaker → Engine
  | .start => .receiving (.listening [])
  | .stop => .idle .stopped
  | .idleGap => .idle .gap

/-- BROKEN_TRANSACTION: a START, a STOP or an idle gap before the slot; the transaction has no effect (R101, R103). -/
def execBrokenTransaction (cause : Breaker) (s : State) : Result :=
  whenRunning (fun s =>
    match s.bus.engine with
    | .receiving (.listening _) => s.setEngine (engineAfterBreak cause)
    | .receiving .ignoring => s.setEngine (engineAfterBreak cause)
    | _ => s) s

/-- FAULT, in which nothing is watched, and BUSFAULT (R118). -/
def State.enterFault (s : State) : State :=
  (s.withBus { s.bus with engine := .fault, watch := .stopped }).raise .busFault

/-- STUCK_BUS: the low time that a started watch counts passes the limit. FAULT and BUSFAULT; a transmission that has not
reached its slot is one attempt (R118). -/
def execStuckBus (s : State) : Result :=
  whenRunning (fun s =>
    match s.bus.watch with
    | .stopped => s
    | .started _ =>
      match s.bus.engine with
      | .sending _ false => s.countAttempt.enterFault
      | .sending _ true => s.enterFault
      | .idle _ => s.enterFault
      | .receiving _ => s.enterFault
      | .fault => s) s

/-- FAULT_EXIT: to IDLE, with the bus busy for a further idle gap and the watch started with no low time counted (R102,
R118, R119). -/
def execFaultExit (s : State) : Result :=
  whenRunning (fun s =>
    if s.bus.engine = .fault then s.withBus { s.bus with engine := .idle .settling, watch := .started 0 } else s) s

/-! ### Transactions received -/

/-- The request that a complete good transaction to the part carries, if every condition of R107 holds. -/
def State.accepts (s : State) (src kind : Byte) (payload : List Byte) : Option Request :=
  match requestOf src kind payload with
  | some r => if s.lease.ready && (!r.needsPlace || s.bus.hasPlace) then some r else none
  | none => none

/-- The effects of a complete transaction with a good check byte at its slot: acceptance (R107, R108), snoop report (R110),
rival indication (R111). -/
def State.hear (s : State) (dest src kind : Byte) (payload : List Byte) : State :=
  let s := if src = Config.authority then s.raise .rival else s
  if dest = Config.authority then
    match s.accepts src kind payload with
    | some r => (s.report (.request src r)).setEngine (.receiving (.slotPassed true))
    | none => s.setEngine (.receiving (.slotPassed false))
  else
    match poolOfByte src with
    | some p => (s.report (.snoop p)).setEngine (.receiving (.slotPassed false))
    | none => s.setEngine (.receiving (.slotPassed false))

/-- A transaction received from its first byte: not interpreted past a length above 12 (R101), nothing where it is not
complete, no effect with a bad check byte (R101), otherwise heard. -/
def State.receive (s : State) (bytes : List Byte) : State :=
  match bytes with
  | dest :: src :: kind :: n :: rest =>
    if Config.maxPayload < n.toNat then s.setEngine (.receiving .ignoring)
    else if rest.length = n.toNat + 1 then
      if crc8 bytes = 0 then s.hear dest src kind (rest.take n.toNat)
      else s.setEngine (.receiving (.slotPassed false))
    else s
  | _ => s

/-- TRANSACTION_RECEIVED: while the engine receives and the slot has not passed, for bytes that begin with the bits already
seen (R99, R105, R107). -/
def execTransactionReceived (bytes : List Byte) (s : State) : Result :=
  whenRunning (fun s =>
    match s.bus.engine with
    | .receiving (.listening seen) => if seen.isPrefixOf (bitsOf bytes) then s.receive bytes else s
    | _ => s) s

end Sys2Proof.Machine
end

