-- ==== Sys2Proof/Machine/Upkeep.lean ====
section
/-! DEFINITION. Chapter 3: the lease clock and the events of timers, RENEW, RELEASE, snoop reports (with conflicts, chapter
4) and the outcomes of PROBE and EVICT. -/

namespace Sys2Proof.Machine

/-! ### Clock and timers -/

/-- Expiry of a LIVE entry whose deadline is the second of the clock (R50, R64). -/
def State.expire (s : State) (p : Pool) : State :=
  match s.leaseOf p with
  | .live t c d =>
    if d = s.lease.clock then
      if (s.lease.classes[c]).probes = 0 then s.withdraw p t
      else s.changeLease p (.stale t c (s.lease.classes[c]).probes .due) .tail
    else s
  | _ => s

/-- End of the quarantine of an entry whose deadline is the second of the clock (R50, R72). -/
def State.endQuarantine (s : State) (p : Pool) : State :=
  match s.leaseOf p with
  | .quarantine last d => if d = s.lease.clock then s.toFree p (some last) .tail else s
  | _ => s

/-- The open window closes in the second of its closing point (R87). -/
def State.closeWindow (s : State) : State :=
  if s.lease.window = some s.lease.clock then s.withLease { s.lease with window := none } else s

/-- The events that belong to the second of the clock and have not been taken in it are taken before it ends, in ascending
address order (R5, R50, R87; the order is log 6). -/
def State.endSecond (s : State) : State :=
  (pools.foldl (fun s p => (s.expire p).endQuarantine p) s).closeWindow

/-- LEASE_CLOCK_TICK: the second ends with nothing left due in it, and the clock rises by one, once the lease engine is ready
(R49, R50). Past 32 bits the count is a free value. -/
def execLeaseClockTick (s : State) : Result :=
  whenReady (fun s => s.endSecond.withLease { s.endSecond.lease with clock := s.endSecond.nowPlus 1 }) s

/-- EXPIRY of a LIVE entry (R50, R64). -/
def execExpiry (p : Pool) (s : State) : Result :=
  whenReady (fun s => s.expire p) s

/-- END_OF_QUARANTINE of an entry (R50, R72). -/
def execEndOfQuarantine (p : Pool) (s : State) : Result :=
  whenReady (fun s => s.endQuarantine p) s

/-- ADOPTION_WINDOW_CLOSE (R87). -/
def execAdoptionWindowClose (s : State) : Result :=
  whenReady (fun s => s.closeWindow) s

/-- The offer that an entry names has its timer run out: WAITING with no time remaining (R36). -/
def State.offerRunOut (s : State) (p : Pool) : Option OfferSlot :=
  match s.leaseOf p with
  | .offered _ _ k =>
    match s.lease.slots[k] with
    | some o => if o.phase = .waiting 0 then some o else none
    | none => none
  | _ => none

/-- The offer whose timer has run out lapses (R36, R38). -/
def State.lapseRunOut (s : State) (p : Pool) : State :=
  match s.offerRunOut p with
  | some o => s.lapse p o
  | none => s

/-- The probe of a STALE entry whose timer has run out has gone unanswered (R67). -/
def State.probeRunOut (s : State) (p : Pool) : State :=
  match s.leaseOf p with
  | .stale _ _ _ (.waiting 0) => s.probeUnanswered p
  | _ => s

/-- OFFER_TIMEOUT (R36, R38). -/
def execOfferTimeout (p : Pool) (s : State) : Result :=
  whenReady (fun s => s.lapseRunOut p) s

/-- PROBE_TIMEOUT (R67). -/
def execProbeTimeout (p : Pool) (s : State) : Result :=
  whenReady (fun s => s.probeRunOut p) s

/-- One millisecond off a running offer timer (R5). -/
def OfferPhase.tick : OfferPhase → OfferPhase
  | .queued => .queued
  | .waiting n => .waiting (n - 1)

/-- One millisecond off a running probe timer (R5). -/
def Lease.tick : Lease → Lease
  | .stale t c n (.waiting k) => .stale t c n (.waiting (k - 1))
  | l => l

/-- The events of the timers that have run out and have not been taken are taken before the millisecond ends, in ascending
address order (R5; the order is log 6). -/
def State.endMillisecond (s : State) : State :=
  pools.foldl (fun s p => (s.lapseRunOut p).probeRunOut p) s

/-- Every running protocol timer has one millisecond less remaining (R5). -/
def State.countDown (s : State) : State :=
  s.withLease
    { s.lease with
      table := Vector.ofFn fun p => { s.entry p with lease := (s.leaseOf p).tick }
      slots := Vector.ofFn fun k => (s.lease.slots[k]).map fun o => { o with phase := o.phase.tick } }

/-- One millisecond passes: what has run out is taken, and the running timers count down (R5; log 1). -/
def State.millisecond (s : State) : State :=
  if s.power = .running ∧ s.lease.ready = true then s.endMillisecond.countDown else s

/-! ### RENEW and RELEASE -/

/-- A lease granted in answer to RENEW: LIVE with a fresh deadline, marked, and a GRANT (R56 to R59). -/
def State.grantLease (s : State) (p : Pool) (t : Tag) (c : ClassId) : State :=
  (s.changeLease p (.live t c (s.leaseDeadline c)) .tail).enqueue (.grant p t c (s.term c))

/-- A LIVE lease renewed: the deadline alone, no mark, and a GRANT (R40, R55). -/
def State.regrantLease (s : State) (p : Pool) (t : Tag) (c : ClassId) : State :=
  (s.setLease p (.live t c (s.leaseDeadline c))).enqueue (.grant p t c (s.term c))

/-- REFUSE(NO_LEASE) to the source (R60). -/
def State.refuseRenew (s : State) (p : Pool) (t : Tag) : State :=
  s.enqueue (.refuse (poolByte p) t .noLease)

/-- RENEW from `p` with tag `t` and class byte `cls`: the first line of the table of 3.4 that applies. -/
def State.renew (s : State) (p : Pool) (t : Tag) (cls : Byte) : State :=
  match classOfByte cls with
  | none => s.refuseRenew p t
  | some c =>
    match s.leaseOf p with
    | .live h k _ => if h = t then s.regrantLease p t k else s.refuseRenew p t
    | .stale h k _ _ => if h = t then s.grantLease p t k else s.refuseRenew p t
    | .quarantine last _ =>
      if last = t ∧ s.holdsEntry t = false ∧ s.store.bindingOf t = none then s.grantLease p t c
      else s.refuseRenew p t
    | .free _ =>
      if s.holdsEntry t = false ∧ s.store.bindingOf t = none then s.grantLease p t c else s.refuseRenew p t
    | .reserved =>
      match s.store.bindingAt p with
      | some b => if b.tag = t ∧ s.holdsEntry t = false then s.grantLease p t b.cls else s.refuseRenew p t
      | none => s.refuseRenew p t
    | .offered _ _ _ => s.refuseRenew p t
    | .withheld => s.refuseRenew p t

/-- RENEW (R54). -/
def execRenew (src : Pool) (tag : Tag) (cls : Byte) (s : State) : Result :=
  takeRequest (.request (poolByte src) (.renew tag cls)) (fun s => s.renew src tag cls) s

/-- RELEASE: a LIVE or STALE lease of the tag is withdrawn; any other RELEASE has no effect (R69). -/
def execRelease (src : Pool) (tag : Tag) (s : State) : Result :=
  takeRequest (.request (poolByte src) (.release tag)) (fun s =>
    match s.leaseOf src with
    | .live h _ _ => if h = tag then s.withdraw src tag else s
    | .stale h _ _ _ => if h = tag then s.withdraw src tag else s
    | _ => s) s

/-! ### Snoop reports -/

/-- A snoop report from `p`: renewal of a held lease whose class has it on (R62, R63), otherwise a conflict while the
window is closed (R83). -/
def State.snoop (s : State) (p : Pool) : State :=
  match s.leaseOf p with
  | .live t c _ => if (s.lease.classes[c]).snoop then s.setLease p (.live t c (s.leaseDeadline c)) else s
  | .stale t c _ _ =>
    if (s.lease.classes[c]).snoop then s.changeLease p (.live t c (s.leaseDeadline c)) .tail else s
  | _ => if s.lease.window = none then s.conflictOn p else s

/-- SNOOP_REPORT (R62, R63, R83). -/
def execSnoopReport (src : Pool) (s : State) : Result :=
  takeNews (fun r => r == .snoop src) (fun s => s.snoop src) s

/-! ### Outcomes of notices -/

/-- The STALE lease still matches a PROBE with this tag: its holder is the tag, probe due is clear and the timer is idle
(R66, R68). -/
def Lease.awaitsProbe (l : Lease) (t : Tag) : Bool :=
  match l with
  | .stale h _ _ .sending => h == t
  | _ => false

/-- The probe timer of a STALE entry starts with the probe timeout as it stands (R53, R66). -/
def State.startProbeTimer (s : State) (p : Pool) : State :=
  match s.leaseOf p with
  | .stale h c n _ => s.setLease p (.stale h c n (.waiting s.lease.timing.probe.toNat))
  | _ => s

/-- PROBE_COMPLETION: the probe timer starts if the entry still matches (R66). -/
def execProbeCompletion (p : Pool) (t : Tag) (s : State) : Result :=
  takeNews (fun r => r == .outcome (.probe p t) true)
    (fun s => if (s.leaseOf p).awaitsProbe t then s.startProbeTimer p else s) s

/-- PROBE_DROP: taken as a probe timeout if the entry still matches (R68). -/
def execProbeDrop (p : Pool) (t : Tag) (s : State) : Result :=
  takeNews (fun r => r == .outcome (.probe p t) false)
    (fun s => if (s.leaseOf p).awaitsProbe t then s.probeUnanswered p else s) s

/-- The report is the outcome of an EVICT to this address. -/
def Report.isEvictOutcome (p : Pool) : Report → Bool
  | .outcome (.evict q _ _) _ => q == p
  | _ => false

/-- An EVICT to this address is still on its way to the lease engine's clearing: it is the current message, or its outcome
is reported and not yet taken. Reports are taken in their order, so an EVICT on its way when the outcome of another is taken
was collected after it (log 24). -/
def BusEngine.evictOnItsWay (b : BusEngine) (p : Pool) : Bool :=
  b.reports.any (Report.isEvictOutcome p) ||
    match b.current with
    | some ⟨.notice (.evict q _ _), _⟩ => q == p
    | _ => false

/-- EVICT_OUTCOME: the field is cleared if it is in transmission and no newer notice has replaced the one that was sent; a
newer one that has been collected since is on its way (R94). -/
def execEvictOutcome (p : Pool) (s : State) : Result :=
  takeNews (Report.isEvictOutcome p) (fun s =>
    if (s.entry p).evict.isSending && !s.bus.evictOnItsWay p then s.setEntry p { s.entry p with evict := .absent } else s) s

/-- The report is the outcome of a GRANT, REFUSE or ANSWER. -/
def Report.isReplyOutcome : Report → Bool
  | .outcome m _ => m.isPlainReply
  | _ => false

/-- REPLY_OUTCOME: no effect (R117). -/
def execReplyOutcome (s : State) : Result :=
  takeNews Report.isReplyOutcome (fun s => s) s

end Sys2Proof.Machine
end

