-- ==== Sys2Proof/Machine/Joining.lean ====
section
/-! DEFINITION. Chapter 2: JOIN with the order of address choice, CLAIM, and the outcomes of an OFFER; chapter 4: RESOLVE and
WHOIS. -/

namespace Sys2Proof.Machine

/-- What the order of address choice comes to (R24). -/
inductive Choice where
  /-- case 1: the OFFER outstanding on this address is sent again -/
  | duplicate (p : Pool)
  /-- cases 2 to 7: an offer of this address with this return state -/
  | offer (p : Pool) (ret : ReturnState)
  /-- case 8 -/
  | poolEmpty
  deriving DecidableEq, Repr

/-- The hint names a pool address whose entry is FREE (R29). -/
def State.hintFree (s : State) (h : Byte) : Option Pool :=
  (poolOfByte h).bind fun p => if (s.leaseOf p).isFree then some p else none

/-- Cases 5 to 8, for a tag without holding, binding or quarantined address (R29 to R31). -/
def State.chooseFree (s : State) (t : Tag) (h : Byte) : Choice :=
  match s.hintFree h with
  | some p => .offer p .free
  | none =>
    match s.freeFor t with
    | some p => .offer p .free
    | none =>
      match s.lease.freeList with
      | p :: _ => .offer p .free
      | [] => .poolEmpty

/-- The order of address choice for a tag and a hint (R24). -/
def State.chooseAddress (s : State) (t : Tag) (h : Byte) : Choice :=
  match s.holding t with
  | some p => if (s.leaseOf p).state = .offered then .duplicate p else .offer p .quarantine
  | none =>
    match s.store.bindingOf t with
    | some b => .offer b.addr .reserved
    | none =>
      match s.quarantinedFor t with
      | some p => .offer p .quarantine
      | none => s.chooseFree t h

/-- The class of an offer: the binding's class where the address is pinned to the tag, otherwise the JOIN's (R27, R32). -/
def State.offerClass (s : State) (t : Tag) (p : Pool) (c : ClassId) : ClassId :=
  match s.store.bindingOf t with
  | some b => if b.addr = p then b.cls else c
  | none => c

/-- A new offer in a free slot (R32). -/
def State.makeOffer (s : State) (k : SlotId) (t : Tag) (p : Pool) (c : ClassId) (ret : ReturnState) : State :=
  let term := s.term c
  (((s.changeLease p (.offered t c k) .tail).putSlot k (some ⟨t, p, c, term, ret, .queued⟩))).enqueue
    (.offer t p c term)

/-- A new copy of the OFFER that the entry's slot recorded (R25). -/
def State.repeatOffer (s : State) (p : Pool) : State :=
  match s.leaseOf p with
  | .offered _ _ k =>
    match s.lease.slots[k] with
    | some o => s.enqueue (.offer o.tag o.addr o.cls o.term)
    | none => s
  | _ => s

/-- A JOIN refused for want of an address or a slot: REFUSE and EXHAUST (R33). -/
def State.refuseJoin (s : State) (t : Tag) (r : RefuseReason) : State :=
  (s.enqueue (.refuse Config.joinAddress t r)).raise .exhaust

/-- JOIN of tag `t` with class byte `cls` and hint `h` (R23, R24). -/
def State.join (s : State) (t : Tag) (cls h : Byte) : State :=
  match classOfByte cls with
  | none => s.enqueue (.refuse Config.joinAddress t .badClass)
  | some c =>
    match s.chooseAddress t h with
    | .duplicate p => s.repeatOffer p
    | .poolEmpty => s.refuseJoin t .poolEmpty
    | .offer p ret =>
      match s.freeSlot with
      | some k => s.makeOffer k t p (s.offerClass t p c) ret
      | none => s.refuseJoin t .offersFull

/-- JOIN (R24). -/
def execJoin (tag : Tag) (cls hint : Byte) (s : State) : Result :=
  takeRequest (.request Config.joinAddress (.join tag cls hint)) (fun s => s.join tag cls hint) s

/-- The WAITING offer of this address to this tag (R40). -/
def State.waitingOffer (s : State) (t : Tag) (p : Pool) : Option OfferSlot :=
  match s.offerOn t p with
  | some (_, o) =>
    match o.phase with
    | .waiting _ => some o
    | .queued => none
  | none => none

/-- CLAIM of a pool address: the claim of a WAITING offer makes the lease, any other is refused (R41, R42). -/
def State.claimOffer (s : State) (t : Tag) (p : Pool) : State :=
  match s.waitingOffer t p with
  | some o => s.grantLease p t o.cls
  | none => s.enqueue (.refuse Config.joinAddress t .noOffer)

/-- CLAIM of tag `t` for address byte `a`: the cases of R40 in order. -/
def State.claim (s : State) (t : Tag) (a : Byte) : State :=
  match poolOfByte a with
  | none => s.enqueue (.refuse Config.joinAddress t .noOffer)
  | some p =>
    match s.leaseOf p with
    | .live h c _ => if h = t then s.regrantLease p t c else s.claimOffer t p
    | _ => s.claimOffer t p

/-- CLAIM (R40). -/
def execClaim (tag : Tag) (addr : Byte) (s : State) : Result :=
  takeRequest (.request Config.joinAddress (.claim tag addr)) (fun s => s.claim tag addr) s

/-- The report is an outcome of an OFFER of this address to this tag. -/
def Report.isOfferOutcome (t : Tag) (p : Pool) (acked : Bool) : Report → Bool
  | .outcome (.offer t' p' _ _) a => t' == t && p' == p && a == acked
  | _ => false

/-- OFFER_COMPLETION: the matching slot is WAITING and its timer starts from the full timeout (R35). -/
def execOfferCompletion (t : Tag) (p : Pool) (s : State) : Result :=
  takeNews (Report.isOfferOutcome t p true) (fun s =>
    match s.offerOn t p with
    | some (k, o) => s.putSlot k (some { o with phase := .waiting s.lease.timing.offer.toNat })
    | none => s) s

/-- OFFER_DROP: a matching QUEUED slot lapses at once (R37). -/
def execOfferDrop (t : Tag) (p : Pool) (s : State) : Result :=
  takeNews (Report.isOfferOutcome t p false) (fun s =>
    match s.offerOn t p with
    | some (_, o) => if o.phase = .queued then s.lapse p o else s
    | none => s) s

/-- Result and address of a RESOLVE: the first line of the table that applies (R80). -/
def State.resolveResult (s : State) (q : Tag) : ResolveResult × Byte :=
  match pools.find? (fun p => (s.leaseOf p).state == .live && (s.leaseOf p).holder == some q) with
  | some p => (.live, poolByte p)
  | none =>
    match pools.find? (fun p => (s.leaseOf p).state == .stale && (s.leaseOf p).holder == some q) with
    | some p => (.stale, poolByte p)
    | none =>
      match s.store.bindingOf q with
      | some b => (.boundAbsent, poolByte b.addr)
      | none => (.unknown, 0x00)

/-- RESOLVE: one ANSWER to the source, nothing else (R79, R80). -/
def execResolve (src : Byte) (query : Tag) (s : State) : Result :=
  takeRequest (.request src (.resolve query)) (fun s =>
    s.enqueue (.answerResolve src query (s.resolveResult query).1 (s.resolveResult query).2)) s

/-- State summary and tag of a WHOIS answer: the holder for LIVE and STALE only (R81). -/
def State.whoisAnswer (s : State) (a : Byte) : Summary × Tag :=
  match poolOfByte a with
  | none => (none, 0)
  | some p =>
    match s.leaseOf p with
    | .live t _ _ => (some .live, t)
    | .stale t _ _ _ => (some .stale, t)
    | l => (some l.state, 0)

/-- WHOIS: one ANSWER to the source, nothing else (R81). -/
def execWhois (src : Byte) (addr : Byte) (s : State) : Result :=
  takeRequest (.request src (.whois addr)) (fun s =>
    s.enqueue (.answerWhois src addr (s.whoisAnswer addr).1 (s.whoisAnswer addr).2)) s

end Sys2Proof.Machine
end

