-- ==== Sys2Proof/Machine/Port.lean ====
section
/-! DEFINITION. Chapter 7: the host port. Frames, delivery, the judgement of a request, the starting gate; NOP and Ident. -/

namespace Sys2Proof.Machine

/-- The content of HSDO for a frame that begins with the buffer as it stands (R154). -/
def Buffer.frameOut : Buffer → FrameOut
  | .empty => .idleFill
  | .pending _ _ => .filler
  | .ready r => .reply r

/-- The SPI mode that the level of HSCK gives (R150). -/
def spiMode (hsck : Bool) : SpiMode := if hsck then .mode3 else .mode0

/-- HSEL_N_FALL: a frame begins (R150, R154). While the part does not run only the level of the pin changes (R151). -/
def execHselNFall (hsck : Bool) (s : State) : Result :=
  .next (if s.port.hselLow then s
    else if s.power = .running then
      s.withPort { s.port with hselLow := true, frame := some ⟨spiMode hsck, s.port.buffer.frameOut⟩ }
    else s.withPort { s.port with hselLow := true })

/-- HSDO is driven: HSEL_N is low in a running part, and the frame has been taken up (R150, R151). Otherwise it is high
impedance; so it is while HSEL_N is high, in reset, and in a frame that had begun before the end of the reset. -/
def State.hsdoDriven (s : State) : Bool := s.power == .running && s.port.hselLow && s.port.frame.isSome

/-- The byte that HSDO shifts out at a position of the frame in progress; none where it is high impedance (R150, R153). -/
def State.hsdo (s : State) (i : Nat) : Option Byte :=
  if s.hsdoDriven then s.port.frame.map (fun f => hsdoByte f.out i) else none

/-- The judgement of a frame's request (R156, R157). -/
inductive Verdict where
  /-- checks 1 to 4 -/
  | error (status : ReplyStatus) (echo : Byte)
  /-- the starting gate -/
  | starting (echo : Byte)
  /-- handed to its owner -/
  | execute (code : RequestCode) (params : List Byte)
  deriving DecidableEq, Repr

/-- Judge the complete bytes of a frame, with or without a partial last byte, by the checks of R156 in order and the gate of
R157. -/
def judge (ready : Bool) (bytes : List Byte) (partialByte : Bool) : Verdict :=
  match bytes with
  | [] => .error .frameError 0x00
  | [code] => .error .frameError code
  | code :: len :: rest =>
    if Config.maxParams < len.toNat then .error .frameError code
    else if bytes.length < len.toNat + 3 ∨ partialByte = true then .error .frameError code
    else if rest[len.toNat]? ≠ some (crc8 (bytes.take (len.toNat + 2))) then .error .checkError code
    else
      match requestOfByte code with
      | none => .error .unknown code
      | some c =>
        if ready = true ∨ c.passesGate = true then .execute c (rest.take len.toNat) else .starting code

/-- The effect of a judged request on the port (R156, R157, R159). -/
def State.dispatch (s : State) (v : Verdict) : State :=
  match v with
  | .error st echo => (s.putReply ⟨st, echo, []⟩).raise .port
  | .starting echo => s.putReply ⟨.starting, echo, []⟩
  | .execute c ps => s.withPort { s.port with buffer := .pending c ps }

/-- The frame delivered what it was owed: nothing, or a whole reply (R154). -/
def FrameOut.delivered (out : FrameOut) (count : Nat) : Bool :=
  match out with
  | .idleFill => true
  | .filler => false
  | .reply r => decide (r.data.length + 4 ≤ count)

/-- HSEL_N_RISE: the frame ends; its request is judged if the frame delivered what it was owed, and discarded otherwise
(R154 to R157). A frame not taken up at a hard reset is ignored (R151). -/
def execHselNRise (bytes : List Byte) (edges : Fin 8) (s : State) : Result :=
  .next (
    let s' := s.withPort { s.port with hselLow := false, frame := none }
    match s.port.frame with
    | none => s'
    | some f =>
      if f.out.delivered bytes.length then s'.dispatch (judge s.lease.ready bytes (edges != 0)) else s')

/-- NOP (R164). -/
def execNop (params : List Byte) (s : State) : Result :=
  serve .nop params (withoutParams params fun s => .ok s []) s

/-- The seven bytes of Ident (R165). -/
def identData : List Byte := [0x41, 0x12, 0x01, 0x70, 0x08, 0x20, 0x08]

/-- IDENT (R165). -/
def execIdent (params : List Byte) (s : State) : Result :=
  serve .ident params (withoutParams params fun s => .ok s identData) s

end Sys2Proof.Machine
end

