-- ==== Sys2Proof/Machine/StartScan.lean ====
section
/-! DEFINITION. Section 6.9, the start-up scan: classification, erases, load of the shadow, repairs and end; the building of
the lease table (R15, R16). -/

namespace Sys2Proof.Machine

/-! ### Classification (R146) -/

/-- The physical sectors that read as a valid image of a logical sector, in ascending order, with their sequence numbers. -/
def imagesOf (flash : Vector Sector 5) (l : LogicalId) : List (SectorId × Half) :=
  (List.finRange 5).filterMap fun k =>
    match validImage (flash[k]) with
    | some (l', q) => if l' = l then some (k, q) else none
    | none => none

/-- The image newer than every other of its group (R146 step 4). -/
def newestOf (group : List (SectorId × Half)) : Option (SectorId × Half) :=
  group.find? fun x => group.all fun y => y.1 == x.1 || newer x.2 y.2

/-- The image that the scan keeps: the newest, or, where none is newer than every other, the lowest-numbered (R146). -/
def keptOf (group : List (SectorId × Half)) : Option (SectorId × Half) := newestOf group <|> group.head?

/-- The kept image of each logical sector. -/
def keptMap (flash : Vector Sector 5) : Vector (Option (SectorId × Half)) 4 :=
  Vector.ofFn fun l => keptOf (imagesOf flash l)

/-- No image of a group is newer than every other: the scan is inconsistent (R146 step 5). -/
def groupClash (group : List (SectorId × Half)) : Bool := !group.isEmpty && (newestOf group).isNone

/-- The sectors to erase: the partial ones, then of each group all but the kept one (R146; log 8). -/
def sectorsToErase (flash : Vector Sector 5) : List SectorId :=
  ((List.finRange 5).filter fun k => classify (flash[k]) == .partially) ++
    (List.finRange 4).flatMap fun l =>
      ((imagesOf flash l).map (·.1)).filter fun k => ((keptOf (imagesOf flash l)).map (·.1)) != some k

/-- The scan begins: every sector classified, the images to keep chosen, the erases to come (R146). -/
def Store.beginScan (st : Store) : Store :=
  { st with
    mode := .scanning
      ⟨.erasing (sectorsToErase st.flash), (List.finRange 4).any fun l => groupClash (imagesOf st.flash l), false⟩
    current := keptMap st.flash
    erased := Vector.ofFn fun k => classify (st.flash[k]) == .erased }

/-! ### Load of the shadow (R147) -/

/-- A slot as a binding: tag valid, address in the pool, class 0 to 3 (R147). -/
def bindingOfCell : SlotCell → Option Binding
  | .blank => none
  | .unreadable => none
  | .written t a c =>
    match validTag t, poolOfByte a, classOfByte c with
    | true, some p, some k => some ⟨t, p, k⟩
    | _, _, _ => none

/-- The cell that a shadow slot takes: its position in the current sector of its logical sector (R147). -/
def Store.cellOf (st : Store) (k : BindSlot) : SlotCell :=
  match st.current[logicalOf k] with
  | some (x, _) => (st.flash[x]).slots[k.val % 8]'(Nat.mod_lt _ (by decide))
  | none => .blank

/-- The load so far: the shadow, and the logical sectors that had a slot rejected. -/
structure Load where
  shadow : Vector (Option Binding) 32
  rejected : Vector Bool 4
  deriving DecidableEq, Repr

/-- A binding repeats the tag or the address of one already loaded (R147). -/
def Load.repeats (l : Load) (b : Binding) : Bool :=
  l.shadow.toList.any fun x =>
    match x with
    | some y => y.tag == b.tag || y.addr == b.addr
    | none => false

/-- Load one shadow slot: empty, loaded, or rejected (R147). -/
def Load.step (st : Store) (l : Load) (k : BindSlot) : Load :=
  if st.cellOf k = .blank then l
  else
    match bindingOfCell (st.cellOf k) with
    | some b =>
      if l.repeats b then { l with rejected := l.rejected.set (logicalOf k) true }
      else { l with shadow := l.shadow.set k (some b) }
    | none => { l with rejected := l.rejected.set (logicalOf k) true }

/-- The load of all 32 slots in ascending order (R147). -/
def Store.loadShadow (st : Store) : Load :=
  (List.finRange 32).foldl (Load.step st) ⟨Vector.replicate 32 none, Vector.replicate 4 false⟩

/-- The logical sectors to repair, in ascending order (R148). -/
def Load.repairs (l : Load) : List LogicalId := (List.finRange 4).filter fun k => l.rejected[k]

/-- Once the erases are done, the shadow is loaded and the repairs are known (R147, R148). In any other stage nothing
changes. -/
def Store.afterErases (st : Store) : Store :=
  match st.mode with
  | .scanning ⟨.erasing [], inconsistent, touched⟩ =>
    let l := st.loadShadow
    { st with
      shadow := l.shadow
      mode := .scanning ⟨.repairing l.repairs [], inconsistent || !l.repairs.isEmpty, touched⟩ }
  | _ => st

/-! ### Repairs (R148) -/

/-- The sector that a repair tries next: the lowest of the erased set not yet tried for it (R148; log 9). -/
def Store.nextTarget (st : Store) (tried : List SectorId) : Option SectorId :=
  (List.finRange 5).find? fun k => st.erased[k] && !tried.contains k

/-- The shadow with the eight slots of a logical sector emptied (R148). -/
def emptyLogical (shadow : Vector (Option Binding) 32) (l : LogicalId) : Vector (Option Binding) 32 :=
  Vector.ofFn fun k => if logicalOf k = l then none else shadow[k]

/-- No erased sector is left: the current sector is erased or marked bad, and the slots are emptied (R148). -/
def Store.giveUpLogical (st : Store) (l : LogicalId) (erase : Sector) : Store :=
  let st' := match st.current[l] with
    | some (k, _) => st.eraseSector k erase
    | none => st
  { st' with current := st'.current.set l none, shadow := emptyLogical st'.shadow l }

/-- A repair whose target holds the new image: the superseded sector is erased, with one retry (R148, R140). -/
def Store.repaired (st : Store) (l : LogicalId) (target : SectorId) (q : Half) (erase retry : Sector) : Store :=
  let st' := match st.current[l] with
    | some (k, _) =>
      if erase = blankSector then st.eraseSector k erase
      else (st.setFlash k (eraseFailed (st.flash[k]) erase)).eraseSector k retry
    | none => st
  { st' with current := st'.current.set l (some (target, q)) }

/-- One repair of the logical sector that is next: done, moved on to the next erased sector, or given up (R148). -/
def Store.repairStep (st : Store) (l : LogicalId) (rest : List LogicalId) (tried : List SectorId) (inconsistent : Bool)
    (image : Sector) (mark : Bool) (erase retry : Sector) : Store :=
  match st.nextTarget tried with
  | none =>
    { st.giveUpLogical l erase with mode := .scanning ⟨.repairing rest [], inconsistent, true⟩ }
  | some t =>
    let q := st.nextSeq l
    let found : Sector := { image with mark := false }
    let taken := { st with erased := st.erased.set t false }
    if found = programmed l q false (imageSlots st.shadow l) ∧ mark = true then
      { (taken.setFlash t { found with mark := true }).repaired l t q erase retry with
        mode := .scanning ⟨.repairing rest [], inconsistent, true⟩ }
    else
      { (taken.setFlash t found).eraseSector t erase with
        mode := .scanning ⟨.repairing (l :: rest) (t :: tried), inconsistent, true⟩ }

/-! ### The lease table built (R15, R16) -/

/-- The lease engine built from the store as it stands: pinned addresses RESERVED, the rest FREE in an ascending free list,
slots empty, defaults, clock 0, the window open to 120, ready (R15, R16, R18, R34, R49, R51, R53, R87). -/
def buildLeaseEngine (st : Store) : LeaseEngine :=
  { ready := true
    table := Vector.ofFn fun p => Entry.blank (if st.pinned p then .reserved else .free none)
    freeList := pools.filter fun p => !st.pinned p
    slots := Vector.replicate 8 none
    classes := classDefaults
    timing := timingDefaults
    clock := 0
    window := some Config.windowDefault }

/-! ### The commands -/

/-- SCAN_SECTOR_ERASE: the next sector is erased or goes to the bad set (R146). -/
def execScanSectorErase (reads : Sector) (s : State) : Result :=
  whenRunning (fun s =>
    match s.store.mode with
    | .scanning ⟨.erasing (k :: rest), inconsistent, _⟩ =>
      s.withStore { s.store.eraseSector k reads with mode := .scanning ⟨.erasing rest, inconsistent, true⟩ }
    | _ => s) s

/-- SCAN_REPAIR: one repair of the logical sector that is next (R148). -/
def execScanRepair (image : Sector) (mark : Bool) (erase retry : Sector) (s : State) : Result :=
  whenRunning (fun s =>
    match s.store.afterErases.mode with
    | .scanning ⟨.repairing (l :: rest) tried, inconsistent, _⟩ =>
      s.withStore (s.store.afterErases.repairStep l rest tried inconsistent image mark erase retry)
    | _ => s) s

/-- The outcome of a scan (R149). -/
def scanOutcome (inconsistent touched : Bool) : ScanOutcome :=
  if inconsistent then .inconsistent else if touched then .recovered else .clean

/-- The scan ends over a loaded and repaired store, as one event (R149): store state, last-result record, lease table,
STORE and START. Reports passed before the lease engine was ready are discarded (R15). -/
def State.endScan (s : State) (st : Store) (o : ScanOutcome) : State :=
  let st' := { st with mode := st.settledMode, last := .scan o }
  ((((s.withStore st').withLease (buildLeaseEngine st')).withBus { s.bus with reports := [] }).raise .store).raise .start

/-- SCAN_END: once nothing is left to erase or to repair (R149). -/
def execScanEnd (s : State) : Result :=
  whenRunning (fun s =>
    match s.store.afterErases.mode with
    | .scanning ⟨.repairing [] _, inconsistent, touched⟩ =>
      s.endScan s.store.afterErases (scanOutcome inconsistent touched)
    | _ => s) s

end Sys2Proof.Machine
end

