-- ==== Sys2Proof/Machine/Requests.lean ====
section
/-! DEFINITION. Chapters 8 and 9 and section 4.5: Status, Acknowledge, Enable, the lookups, Scan, Free List, Revoke, Withhold,
the class table and the timing set, Restart. -/

namespace Sys2Proof.Machine

/-- STATUS (R166, R167). -/
def execStatus (params : List Byte) (s : State) : Result :=
  serve .status params (withoutParams params fun s => .ok s s.statusRecord) s

/-! ### Attention unit -/

/-- Acknowledge by its owner: the named latched flags cleared, and the flags as they then stand (R168, R190). -/
def ownAcknowledge (params : List Byte) (s : State) : Answer :=
  match params with
  | [mask] =>
    let s' := s.withAtt { s.att with latched := s.att.latched.acknowledge mask }
    .ok s' [s'.causeFlags]
  | _ => .badParam s

/-- ACKNOWLEDGE (R168, R190). -/
def execAcknowledge (params : List Byte) (s : State) : Result :=
  serve .acknowledge params (ownAcknowledge params) s

/-- Enable by its owner: all eight enables written (R169). -/
def ownEnable (params : List Byte) (s : State) : Answer :=
  match params with
  | [e] =>
    let s' := s.withAtt { s.att with enables := e }
    .ok s' [s'.causeFlags, e]
  | _ => .badParam s

/-- ENABLE (R169). -/
def execEnable (params : List Byte) (s : State) : Result :=
  serve .enable params (ownEnable params) s

/-! ### Lookups -/

/-- Lookup Address by its owner (R170). -/
def ownLookupAddress (params : List Byte) (s : State) : Answer :=
  match params with
  | [a, option] =>
    match poolOfByte a with
    | none => .badParam s
    | some p =>
      if option = 0x00 then .ok s (s.leaseRecord p)
      else if option = 0x01 then .ok (s.setEntry p { s.entry p with conflicts := 0 }) (s.leaseRecord p)
      else .badParam s
  | _ => .badParam s

/-- The parameters carry a given option in their second byte. -/
def hasOption (params : List Byte) (option : Byte) : Bool :=
  match params with
  | [_, o] => o == option
  | _ => false

/-- LOOKUP_ADDRESS: every Lookup Address but one with option 0x01 (R170). -/
def execLookupAddress (params : List Byte) (s : State) : Result :=
  if hasOption params 0x01 then .next s else serve .lookupAddress params (ownLookupAddress params) s

/-- LOOKUP_ADDRESS_CLEAR: every Lookup Address but one with option 0x00 (R170). -/
def execLookupAddressClear (params : List Byte) (s : State) : Result :=
  if hasOption params 0x00 then .next s else serve .lookupAddress params (ownLookupAddress params) s

/-- Lookup Tag by its owners (R172). -/
def ownLookupTag (params : List Byte) (s : State) : Answer :=
  if params.length = 6 ∧ validTag (tagOfBytes params) = true then
    let t := tagOfBytes params
    match s.holding t with
    | some p =>
      .ok s ([0x01] ++ s.leaseRecord p ++
        [match s.store.slotOf t with
          | some k => byteOf k.val
          | none => 0xFF])
    | none =>
      match s.store.slotOf t, s.store.bindingOf t with
      | some k, some b => .ok s ([0x02] ++ s.store.bindingRecord k ++ [(s.leaseOf b.addr).state.code])
      | _, _ => .notFound s
  else .badParam s

/-- LOOKUP_TAG (R172). -/
def execLookupTag (params : List Byte) (s : State) : Result :=
  serve .lookupTag params (ownLookupTag params) s

/-! ### Scan and Free List -/

/-- Clear the change marks of some entries (R194). -/
def State.clearMarks (s : State) (chosen : List Pool) : State :=
  s.withLease { s.lease with
    table := Vector.ofFn fun p => if chosen.contains p then { s.entry p with mark := false } else s.entry p }

/-- Scan by its owner: the eight lowest marked entries, MORE, and their marks cleared (R193, R194). -/
def ownScan (s : State) : Answer :=
  let chosen := s.marked.take 8
  .ok (s.clearMarks chosen) (s.scanData chosen (decide (8 < s.marked.length)))

/-- SCAN (R173, R193, R194). -/
def execScan (params : List Byte) (s : State) : Result :=
  serve .scan params (withoutParams params ownScan) s

/-- Free List by its owner (R174). -/
def ownFreeList (params : List Byte) (s : State) : Answer :=
  match params with
  | [start] => if start.toNat ≤ 111 then .ok s (s.freeListData start.toNat) else .badParam s
  | _ => .badParam s

/-- FREE_LIST (R174). -/
def execFreeList (params : List Byte) (s : State) : Result :=
  serve .freeList params (ownFreeList params) s

/-! ### Revoke and Withhold -/

/-- Revoke of a pool address by its state (R89 to R91, R175). -/
def State.revoke (s : State) (p : Pool) : Answer :=
  match s.leaseOf p with
  | .live t _ _ => .ok ((s.setEvict p t .admin).withdraw p t) []
  | .stale t _ _ _ => .ok ((s.setEvict p t .admin).withdraw p t) []
  | .offered t _ _ => .ok ((s.withdraw p t).refuseRevoked t) []
  | .quarantine last _ => .ok (s.toFree p (some last) .tail) []
  | .free _ => .refused s .nothing
  | .reserved => .refused s .nothing
  | .withheld => .refused s .nothing

/-- Revoke by its owner (R175). -/
def ownRevoke (params : List Byte) (s : State) : Answer :=
  match params with
  | [a] =>
    match poolOfByte a with
    | some p => s.revoke p
    | none => .badParam s
  | _ => .badParam s

/-- REVOKE (R175). -/
def execRevoke (params : List Byte) (s : State) : Result :=
  serve .revoke params (ownRevoke params) s

/-- Withhold on (R21): pinned or RESERVED before held. -/
def State.withhold (s : State) (p : Pool) : Answer :=
  if s.store.pinned p then .refused s .pinned
  else
    match s.leaseOf p with
    | .free _ => .ok (s.changeLease p .withheld .tail) []
    | .quarantine _ _ => .ok (s.changeLease p .withheld .tail) []
    | .withheld => .ok s []
    | .reserved => .refused s .pinned
    | .offered _ _ _ => .refused s .held
    | .live _ _ _ => .refused s .held
    | .stale _ _ _ _ => .refused s .held

/-- Withhold off (R22). -/
def State.unwithhold (s : State) (p : Pool) : Answer :=
  match s.leaseOf p with
  | .withheld => .ok (s.toFree p none .tail) []
  | _ => .refused s .nothing

/-- Withhold by its owner (R176). -/
def ownWithhold (params : List Byte) (s : State) : Answer :=
  match params with
  | [a, option] =>
    match poolOfByte a with
    | none => .badParam s
    | some p =>
      if option = 0x01 then s.withhold p
      else if option = 0x00 then s.unwithhold p
      else .badParam s
  | _ => .badParam s

/-- WITHHOLD_ON: every Withhold but one with option 0x00 (R21, R176). -/
def execWithholdOn (params : List Byte) (s : State) : Result :=
  if hasOption params 0x00 then .next s else serve .withhold params (ownWithhold params) s

/-- WITHHOLD_OFF: every Withhold but one with option 0x01 (R22, R176). -/
def execWithholdOff (params : List Byte) (s : State) : Result :=
  if hasOption params 0x01 then .next s else serve .withhold params (ownWithhold params) s

/-! ### Class table and timing set -/

/-- A snoop byte: 0x00 off, 0x01 on (R177). -/
def snoopOfByte (b : Byte) : Option Bool := if b = 0 then some false else if b = 1 then some true else none

/-- A probe count byte, 0 to 3 (R177). -/
def probesOfByte (b : Byte) : Option (Fin 4) := if h : b.toNat < 4 then some ⟨b.toNat, h⟩ else none

/-- Class Set by its owner (R177). -/
def ownClassSet (params : List Byte) (s : State) : Answer :=
  match params with
  | [c, t1, t0, n, o] =>
    match classOfByte c, probesOfByte n, snoopOfByte o with
    | some k, some probes, some snoop =>
      if 10 ≤ (halfOfBytes t1 t0).toNat then
        let s' := s.withLease
          { s.lease with classes := s.lease.classes.set k ⟨halfOfBytes t1 t0, probes, snoop⟩ }
        .ok s' (s'.classRecord k)
      else .badParam s
    | _, _, _ => .badParam s
  | _ => .badParam s

/-- CLASS_SET (R177). -/
def execClassSet (params : List Byte) (s : State) : Result :=
  serve .classSet params (ownClassSet params) s

/-- Class Get by its owner (R178). -/
def ownClassGet (params : List Byte) (s : State) : Answer :=
  match params with
  | [c] =>
    match classOfByte c with
    | some k => .ok s (s.classRecord k)
    | none => .badParam s
  | _ => .badParam s

/-- CLASS_GET (R178). -/
def execClassGet (params : List Byte) (s : State) : Result :=
  serve .classGet params (ownClassGet params) s

/-- The ranges of the timing set (R179). -/
def Timing.inRange (t : Timing) : Bool :=
  decide (50 ≤ t.offer.toNat ∧ t.offer.toNat ≤ 2000 ∧ t.offer.toNat % 10 = 0) &&
  decide (100 ≤ t.probe.toNat ∧ t.probe.toNat ≤ 10000 ∧ t.probe.toNat % 100 = 0) &&
  decide (t.quarantine.toNat ≤ 3600) && decide (t.window.toNat ≤ 3600)

/-- The adoption window after a Timing Set: an open one closes at once or moves its closing point (R88). -/
def LeaseEngine.windowAfter (l : LeaseEngine) (value : Half) : Option LeaseTime :=
  match l.window with
  | none => none
  | some _ => if value.toNat ≤ l.clock.toNat then none else some (BitVec.ofNat 32 value.toNat)

/-- Timing Set by its owner (R88, R179). -/
def ownTimingSet (params : List Byte) (s : State) : Answer :=
  match params with
  | [o1, o0, p1, p0, q1, q0, w1, w0] =>
    let t : Timing := ⟨halfOfBytes o1 o0, halfOfBytes p1 p0, halfOfBytes q1 q0, halfOfBytes w1 w0⟩
    if t.inRange then
      let s' := s.withLease { s.lease with timing := t, window := s.lease.windowAfter t.window }
      .ok s' s'.timingRecord
    else .badParam s
  | _ => .badParam s

/-- TIMING_SET (R179). -/
def execTimingSet (params : List Byte) (s : State) : Result :=
  serve .timingSet params (ownTimingSet params) s

/-- TIMING_GET (R180). -/
def execTimingGet (params : List Byte) (s : State) : Result :=
  serve .timingGet params (withoutParams params fun s => .ok s s.timingRecord) s

/-! ### Restart -/

/-- A byte of which some bits have been sent and the rest are released (R122). -/
def finishReleased (b : Byte) (sentBits : Nat) : Byte := b ||| ((0xFF : Byte) >>> sentBits)

/-- The rest of a cut transmission whose length byte has been sent and whose check byte has not begun: the remaining payload
as 0xFF, the complement of the check value, and the slot left unread (R122). -/
def cutPayload (frame begun : List Byte) (outbid : Bool) : Cut :=
  let filled := begun ++ List.replicate (frame.length - 1 - begun.length) 0xFF
  ⟨filled ++ [~~~ crc8 filled], true, outbid⟩

/-- The cut of a transmission of which `sent` bits have been sent (R122): in the acknowledge slot or after it; between two
bytes; in the check byte; up to the length byte; in the payload. A byte of which no bit has been sent is not in progress and
has not begun. DESIGN CHOICE (log 20): where the length byte has not been completed and no byte is in progress (in the
START, or just after byte 0, 1 or 2), R122 names no byte to finish before the STOP; the model sends none. -/
def cutOf (frame : List Byte) (sent : Nat) (outbid : Bool) : Cut :=
  let i := sent / 8
  match frame[i]? with
  | none => ⟨frame, true, outbid⟩
  | some b =>
    if sent % 8 = 0 then
      if i < 4 then ⟨frame.take i, false, outbid⟩ else cutPayload frame (frame.take i) outbid
    else
      let begun := frame.take i ++ [finishReleased b (sent % 8)]
      if i + 1 = frame.length ∨ i < 4 then ⟨begun, false, outbid⟩ else cutPayload frame begun outbid

/-- The bus engine after a Restart (R122): queue, reservations, current message and untaken requests discarded, the
transmission cut, the bit rate kept, the watch started anew with no low time counted, and IDLE with the bus busy. -/
def BusEngine.restarted (b : BusEngine) (sent : Nat) (outbid : Bool) : BusEngine :=
  { engine := .idle .settling
    fast := b.fast
    queue := []
    current := none
    reports := b.reports.filter fun r =>
      match r with
      | .request _ _ => false
      | .snoop _ => true
      | .outcome _ _ => true
    watch := .started 0
    lastCut := match b.engine with
      | .sending frame slotPassed => some (cutOf frame (if slotPassed then 8 * frame.length else sent) outbid)
      | _ => none }

/-- The attention unit after a Restart: all flags cleared, the enable of START alone, then START set (R192). -/
def Attention.restarted : Attention := ⟨Latched.clear.set .start, 0x01⟩

/-- Restart by its owners (R16, R122, R144, R162, R184, R192). -/
def State.restart (s : State) (sent : Nat) (outbid : Bool) : State :=
  ((s.withLease (buildLeaseEngine s.store)).withBus (s.bus.restarted sent outbid)).withAtt .restarted

/-- RESTART (R184). -/
def execRestart (params : List Byte) (sent : Nat) (outbid : Bool) (s : State) : Result :=
  serve .restart params (withoutParams params fun s => .ok (s.restart sent outbid) []) s

end Sys2Proof.Machine
end

