-- ==== Sys2Proof/Machine/Reset.lean ====
section
/-! DEFINITION. Hard reset, its end, and the loss of the supply (R121, R145, R146, R151, R161, R191). -/

namespace Sys2Proof.Machine

/-- What a cut leaves of a scan repair in flight, by the step it falls in (R145, R148). -/
def Store.cutRepair (st : Store) (cut : FlashCut) : Vector Sector 5 :=
  match st.mode with
  | .scanning ⟨.repairing (l :: _) tried, _, _⟩ =>
    match st.nextTarget tried with
    | none =>
      match st.current[l] with
      | some (k, _) => st.flash.set k (eraseLeft (st.flash[k]) cut.reads)
      | none => st.flash
    | some t =>
      let image := programmed l (st.nextSeq l) true (imageSlots st.shadow l)
      match cut.step with
      | .program => st.flash.set t { cut.reads with mark := false }
      | .mark => st.flash.set t { image with mark := cut.reads.mark }
      | .erase =>
        match st.current[l] with
        | some (k, _) => (st.flash.set t image).set k (eraseLeft (st.flash[k]) cut.reads)
        | none => st.flash.set t image
  | _ => st.flash

/-- The flash after an operation in progress is cut off where it stands (R145): only the region under operation changes. -/
def Store.cutFlash (st : Store) (cut : FlashCut) : Vector Sector 5 :=
  match st.mode with
  | .rewriting r =>
    match r.step with
    | .program => st.flash.set r.target { cut.reads with mark := false }
    | .mark => st.flash.set r.target { st.flash[r.target] with mark := cut.reads.mark }
    | .eraseTarget => st.flash.set r.target (eraseLeft (st.flash[r.target]) cut.reads)
    | .eraseOld _ =>
      match st.current[r.logical] with
      | some (k, _) => st.flash.set k (eraseLeft (st.flash[k]) cut.reads)
      | none => st.flash
  | .scanning p =>
    match p.stage with
    | .notBegun => st.flash
    | .erasing (k :: _) => st.flash.set k (eraseLeft (st.flash[k]) cut.reads)
    | .erasing [] => st.afterErases.cutRepair cut
    | .repairing _ _ => st.cutRepair cut
  | .ready => st.flash
  | .degraded => st.flash

/-- Everything but the flash, the pins and the queue of commands goes to its reset value (R121, R123, R129, R145, R161,
R191). -/
def State.volatileLost (s : State) (power : Power) (fast : Bool) (cut : FlashCut) : State :=
  { s with
    power := power
    lease := .notReady
    bus := .afterReset fast
    store := .afterReset (s.store.cutFlash cut)
    port := { hselLow := s.port.hselLow, frame := none, buffer := .empty }
    att := .afterReset }

/-- HARD_RESET: power-on, or RESET_N low; the strap is sampled (R97, R121). -/
def execHardReset (spd : Bool) (cut : FlashCut) (s : State) : Result :=
  .next (s.volatileLost .held spd cut)

/-- HARD_RESET_END: the part runs, and the start-up scan begins (R146, R161). -/
def execHardResetEnd (s : State) : Result :=
  .next (if s.power = .held then { s with power := .running, store := s.store.beginScan } else s)

/-- POWER_LOSS: RAM is lost and the flash keeps what had been written (R145). -/
def execPowerLoss (cut : FlashCut) (s : State) : Result :=
  .next (if s.power = .off then s else s.volatileLost .off s.bus.fast cut)

end Sys2Proof.Machine
end

