-- ==== Sys2Proof/Machine/Dispatch.lean ====
section
/-! DEFINITION. The effect of each command: one arm per constructor. -/

namespace Sys2Proof.Machine

def exec (i : Instr) (s : State) : Host.Outcome State Fault Refusal :=
  match i with
  | .hardReset spd cut => Sys2Proof.Machine.execHardReset spd cut s
  | .scanSectorErase reads => Sys2Proof.Machine.execScanSectorErase reads s
  | .scanRepair image mark erase retry => Sys2Proof.Machine.execScanRepair image mark erase retry s
  | .scanEnd => Sys2Proof.Machine.execScanEnd s
  | .leaseClockTick => Sys2Proof.Machine.execLeaseClockTick s
  | .expiry addr => Sys2Proof.Machine.execExpiry addr s
  | .endOfQuarantine addr => Sys2Proof.Machine.execEndOfQuarantine addr s
  | .adoptionWindowClose => Sys2Proof.Machine.execAdoptionWindowClose s
  | .offerTimeout addr => Sys2Proof.Machine.execOfferTimeout addr s
  | .probeTimeout addr => Sys2Proof.Machine.execProbeTimeout addr s
  | .busStartByOther => Sys2Proof.Machine.execBusStartByOther s
  | .ownStart => Sys2Proof.Machine.execOwnStart s
  | .currentMessageChoice => Sys2Proof.Machine.execCurrentMessageChoice s
  | .arbitrationLost bit => Sys2Proof.Machine.execArbitrationLost bit s
  | .transactionReceived bytes => Sys2Proof.Machine.execTransactionReceived bytes s
  | .brokenTransaction cause => Sys2Proof.Machine.execBrokenTransaction cause s
  | .busStop => Sys2Proof.Machine.execBusStop s
  | .busIdleGap => Sys2Proof.Machine.execBusIdleGap s
  | .ownTransmissionAck => Sys2Proof.Machine.execOwnTransmissionAck s
  | .attempt result => Sys2Proof.Machine.execAttempt result s
  | .stuckBus => Sys2Proof.Machine.execStuckBus s
  | .faultExit => Sys2Proof.Machine.execFaultExit s
  | .join tag cls hint => Sys2Proof.Machine.execJoin tag cls hint s
  | .claim tag addr => Sys2Proof.Machine.execClaim tag addr s
  | .renew src tag cls => Sys2Proof.Machine.execRenew src tag cls s
  | .release src tag => Sys2Proof.Machine.execRelease src tag s
  | .resolve src query => Sys2Proof.Machine.execResolve src query s
  | .whois src addr => Sys2Proof.Machine.execWhois src addr s
  | .snoopReport src => Sys2Proof.Machine.execSnoopReport src s
  | .offerCompletion tag addr => Sys2Proof.Machine.execOfferCompletion tag addr s
  | .offerDrop tag addr => Sys2Proof.Machine.execOfferDrop tag addr s
  | .probeCompletion addr tag => Sys2Proof.Machine.execProbeCompletion addr tag s
  | .probeDrop addr tag => Sys2Proof.Machine.execProbeDrop addr tag s
  | .evictOutcome addr => Sys2Proof.Machine.execEvictOutcome addr s
  | .replyOutcome => Sys2Proof.Machine.execReplyOutcome s
  | .hselNFall hsck => Sys2Proof.Machine.execHselNFall hsck s
  | .hselNRise bytes edges => Sys2Proof.Machine.execHselNRise bytes edges s
  | .nop params => Sys2Proof.Machine.execNop params s
  | .ident params => Sys2Proof.Machine.execIdent params s
  | .status params => Sys2Proof.Machine.execStatus params s
  | .acknowledge params => Sys2Proof.Machine.execAcknowledge params s
  | .enable params => Sys2Proof.Machine.execEnable params s
  | .lookupAddress params => Sys2Proof.Machine.execLookupAddress params s
  | .lookupAddressClear params => Sys2Proof.Machine.execLookupAddressClear params s
  | .lookupTag params => Sys2Proof.Machine.execLookupTag params s
  | .scan params => Sys2Proof.Machine.execScan params s
  | .freeList params => Sys2Proof.Machine.execFreeList params s
  | .revoke params => Sys2Proof.Machine.execRevoke params s
  | .withholdOn params => Sys2Proof.Machine.execWithholdOn params s
  | .withholdOff params => Sys2Proof.Machine.execWithholdOff params s
  | .classSet params => Sys2Proof.Machine.execClassSet params s
  | .classGet params => Sys2Proof.Machine.execClassGet params s
  | .timingSet params => Sys2Proof.Machine.execTimingSet params s
  | .timingGet params => Sys2Proof.Machine.execTimingGet params s
  | .bind params => Sys2Proof.Machine.execBind params s
  | .unbind params => Sys2Proof.Machine.execUnbind params s
  | .bindingRead params => Sys2Proof.Machine.execBindingRead params s
  | .restart params sent outbid => Sys2Proof.Machine.execRestart params sent outbid s
  | .imageProgram reads => Sys2Proof.Machine.execImageProgram reads s
  | .validMark reads => Sys2Proof.Machine.execValidMark reads s
  | .targetErase reads => Sys2Proof.Machine.execTargetErase reads s
  | .supersededErase reads => Sys2Proof.Machine.execSupersededErase reads s
  | .hardResetEnd => Sys2Proof.Machine.execHardResetEnd s
  | .powerLoss cut => Sys2Proof.Machine.execPowerLoss cut s

end Sys2Proof.Machine
end

