-- ==== Sys2Proof/Safety.lean ====
section
/-! DEFINITION. What counts as a sound state: the laws that the manual states of the whole part, each as a predicate that
every step keeps; and the words in which statements speak of a command's effect. -/

namespace Sys2Proof.Safety

open Sys2Proof.Machine

/-! ### Laws of the lease engine -/

/-- The free list holds exactly the FREE addresses, each once (R17). -/
def FreeListLaw (s : State) : Prop :=
  s.lease.freeList.Nodup ∧ ∀ p : Pool, p ∈ s.lease.freeList ↔ (s.leaseOf p).isFree = true

/-- OFFERED entries and occupied slots name one another, with the same tag and class (R34). -/
def OfferLaw (s : State) : Prop :=
  (∀ (p : Pool) (t : Tag) (c : ClassId) (k : SlotId), s.leaseOf p = .offered t c k →
    ∃ o, s.lease.slots[k] = some o ∧ o.addr = p ∧ o.tag = t ∧ o.cls = c) ∧
  ∀ (k : SlotId) (o : OfferSlot), s.lease.slots[k] = some o → s.leaseOf o.addr = .offered o.tag o.cls k

/-- At most one entry in OFFERED, LIVE or STALE names a tag as its holder (R3). -/
def OneHolderLaw (s : State) : Prop :=
  ∀ (p q : Pool) (t : Tag), (s.leaseOf p).holder = some t → (s.leaseOf q).holder = some t → p = q

/-- No deadline and no closing point lies behind the clock: its event belongs to the second that the clock rises to it (R5,
R50, R87). -/
def DeadlineLaw (s : State) : Prop :=
  (∀ (p : Pool) (d : LeaseTime), (s.leaseOf p).deadline = some d → s.lease.clock.toNat ≤ d.toNat) ∧
  ∀ c : LeaseTime, s.lease.window = some c → s.lease.clock.toNat ≤ c.toNat

/-- The laws of the lease table together. -/
def TableLaws (s : State) : Prop := FreeListLaw s ∧ OfferLaw s ∧ OneHolderLaw s

/-! ### Laws of the bus engine -/

/-- The watch is stopped in FAULT and in no other state of the transceiver (R118). -/
def WatchLaw (s : State) : Prop := s.bus.watch = .stopped ↔ s.bus.engine = .fault

/-- Queued messages and reserved places never exceed eight (R112); a current message at the head has a head; the count of
attempts is below the limit; what is being sent is the current message (R114, R116); and the watch law. -/
def BusLaws (s : State) : Prop :=
  s.bus.queue.length + s.bus.reserved ≤ 8 ∧
  (∀ n, s.bus.current = some ⟨.head, n⟩ → s.bus.queue ≠ []) ∧
  (∀ c, s.bus.current = some c → c.attempts < 8) ∧
  (∀ bytes, s.bus.engine = .sending bytes false → ∃ m, s.bus.currentMessage = some m ∧ bytes = m.bytes) ∧
  WatchLaw s

/-! ### Laws of the host port -/

/-- The reply in the buffer has at most 24 data bytes; a status other than OK and REFUSED carries none, and REFUSED one
(R153, R163, R200). A frame is in progress only in a running part with HSEL_N low (R150, R151). -/
def ReplyLaw (s : State) : Prop :=
  (∀ r, s.port.buffer = .ready r →
    r.data.length ≤ 24 ∧ (r.status = .refused → r.data.length = 1) ∧
      (r.status ≠ .ok → r.status ≠ .refused → r.data = [])) ∧
  (s.port.frame ≠ none → s.power = .running ∧ s.port.hselLow = true)

/-- The lease engine is ready exactly when the scan is over (R15, R149), and only in a running part; before it is, the port
hands on only what passes the gate (R157), and the lease engine stands at its reset values (R15). -/
def GateLaw (s : State) : Prop :=
  (s.power ≠ .running → s.lease.ready = false) ∧
  (s.lease.ready = true ↔ ∀ p, s.store.mode ≠ .scanning p) ∧
  (s.lease.ready = false → ∀ c ps, s.port.buffer = .pending c ps → c.passesGate = true) ∧
  (s.lease.ready = false → s.lease = LeaseEngine.notReady)

/-! ### Laws of the binding store -/

/-- No two bindings of the shadow have the same tag or the same address (R123). -/
def ShadowLaw (st : Store) : Prop :=
  ∀ (j k : BindSlot) (b d : Binding), st.shadow[j] = some b → st.shadow[k] = some d →
    b.tag = d.tag ∨ b.addr = d.addr → j = k

/-- A pending change fits the shadow: the slot holds what R124 says, the superseded address is the old one where it differs,
and the old binding can be put back without a repetition. -/
def ChangeLaw (st : Store) : Prop :=
  ∀ r, st.mode = .rewriting r →
    match r.change with
    | .unbind k b => st.shadow[k] = some b
    | .bind k before after superseded =>
      st.shadow[k] = some after ∧ superseded = supersededBy before after.addr ∧
        ∀ b, before = some b → b.tag = after.tag ∧
          ∀ (j : BindSlot) (d : Binding), j ≠ k → st.shadow[j] = some d → d.addr ≠ b.addr

/-- Once the lease engine is ready: an address named by a binding is RESERVED or held by that binding's tag (R13), a
superseded address is RESERVED (R134), and every RESERVED address is pinned. -/
def PinnedLaw (s : State) : Prop :=
  s.lease.ready = true →
    (∀ (k : BindSlot) (b : Binding), s.store.shadow[k] = some b →
      s.leaseOf b.addr = .reserved ∨ (s.leaseOf b.addr).holder = some b.tag) ∧
    (∀ p, s.store.superseded = some p → s.leaseOf p = .reserved) ∧
    ∀ p, s.leaseOf p = .reserved → s.store.pinned p = true

/-- The laws that tie the lease table to the shadow. -/
def BindingLaws (s : State) : Prop := ShadowLaw s.store ∧ ChangeLaw s.store ∧ PinnedLaw s

/-- The sector is the current sector of some logical sector. -/
def IsCurrent (st : Store) (k : SectorId) : Prop := ∃ (l : LogicalId) (q : Half), st.current[l] = some (k, q)

/-- A logical sector and a shadow agree: the current sector holds just the slots of the shadow under the map's sequence
number, or there is neither (R127). -/
def Agrees (st : Store) (shadow : Vector (Option Binding) 32) (l : LogicalId) : Prop :=
  match st.current[l] with
  | some (k, q) => st.flash[k] = programmed l q true (imageSlots shadow l)
  | none => ∀ i : Fin 8, shadow[shadowSlot l i] = none

/-- The shadow without the change of a rewrite (R135, R137). -/
def shadowBefore (st : Store) (r : Rewrite) : Vector (Option Binding) 32 := r.change.settle false st.shadow

/-- What the sector map says in every store state (R125, R127): erased sectors are blank and not bad; a current sector is
neither, is current for one logical sector only. -/
def MapLaw (st : Store) : Prop :=
  (∀ k : SectorId, st.erased[k] = true → st.bad[k] = false ∧ st.flash[k] = blankSector) ∧
  (∀ (l : LogicalId) (k : SectorId) (q : Half), st.current[l] = some (k, q) →
    st.erased[k] = false ∧ st.bad[k] = false) ∧
  ∀ (l m : LogicalId) (k : SectorId) (q r : Half), st.current[l] = some (k, q) → st.current[m] = some (k, r) → l = m

/-- A good sector is erased or current (R127). -/
def Covered (st : Store) (k : SectorId) : Prop := st.bad[k] = true ∨ st.erased[k] = true ∨ IsCurrent st k

/-- The current sectors read as valid images under the numbers of the map (R127, R146). -/
def CurrentValid (st : Store) : Prop :=
  ∀ (l : LogicalId) (k : SectorId) (q : Half), st.current[l] = some (k, q) → validImage (st.flash[k]) = some (l, q)

/-- A rewrite in flight (R126, R127, R138): its target is in neither set and current for nothing, every other good sector
is erased or current, the sequence number is the next one, the target holds what the finished steps have left in it, and
the old images stand until they are erased. -/
def RewriteLaw (st : Store) (r : Rewrite) : Prop :=
  st.erased[r.target] = false ∧ st.bad[r.target] = false ∧ ¬ IsCurrent st r.target ∧
  (∀ k : SectorId, k ≠ r.target → Covered st k) ∧ CurrentValid st ∧ r.seq = st.nextSeq r.logical ∧
  (match r.step with
    | .program => st.flash[r.target] = blankSector
    | .mark => st.flash[r.target] = programmed r.logical r.seq false (r.slots st)
    | .eraseTarget => (st.flash[r.target]).mark = false
    | .eraseOld _ => st.flash[r.target] = programmed r.logical r.seq true (r.slots st) ∧ st.current[r.logical] ≠ none) ∧
  ∀ l : LogicalId, (∃ retry, r.step = .eraseOld retry) ∧ l = r.logical ∨ Agrees st (shadowBefore st r) l

/-- The scan in progress (R146 to R148): what it has still to erase is in no set and current for nothing; what it has still
to repair is all that may differ from the shadow. -/
def ScanLaw (st : Store) (stage : ScanStage) : Prop :=
  match stage with
  | .notBegun =>
    (∀ k : SectorId, st.erased[k] = false ∧ st.bad[k] = false) ∧ (∀ l : LogicalId, st.current[l] = none) ∧
      ∀ k : BindSlot, st.shadow[k] = none
  | .erasing todo =>
    todo.Nodup ∧ CurrentValid st ∧
    (∀ k : SectorId, k ∈ todo → st.erased[k] = false ∧ st.bad[k] = false ∧ ¬ IsCurrent st k) ∧
    ∀ k : SectorId, k ∈ todo ∨ Covered st k
  | .repairing todo _ =>
    todo.Nodup ∧ CurrentValid st ∧ (∀ k : SectorId, Covered st k) ∧
    ∀ l : LogicalId, l ∈ todo ∨ Agrees st st.shadow l

/-- The laws of the store (R127, R128). READY has an erased sector and DEGRADED none; in both the shadow equals the flash.
While the part does not run its scan has not begun. -/
def StoreLaws (s : State) : Prop :=
  (s.power ≠ .running → ∃ i t, s.store.mode = .scanning ⟨.notBegun, i, t⟩) ∧
  MapLaw s.store ∧
  match s.store.mode with
  | .ready =>
    0 < s.store.erasedCount ∧ (∀ k : SectorId, Covered s.store k) ∧ ∀ l : LogicalId, Agrees s.store s.store.shadow l
  | .degraded =>
    s.store.erasedCount = 0 ∧ (∀ k : SectorId, Covered s.store k) ∧ ∀ l : LogicalId, Agrees s.store s.store.shadow l
  | .rewriting r => RewriteLaw s.store r
  | .scanning p => ScanLaw s.store p.stage

/-! ### Words for the effect of a command -/

/-- The part runs and the lease engine is ready. -/
def Serving (s : State) : Prop := s.power = .running ∧ s.lease.ready = true

/-- The port holds this request for its owner (R157). -/
def Asked (s : State) (code : RequestCode) (params : List Byte) : Prop :=
  s.power = .running ∧ s.port.buffer = .pending code params

/-- A report is the oldest that the lease engine has not taken, with these behind it (R109). -/
def Reported (s : State) (r : Report) (rest : List Report) : Prop := Serving s ∧ s.bus.reports = r :: rest

/-- The state after a list of commands, one after the other. -/
def doing (commands : List Instr) (s : State) : State :=
  commands.foldl (fun s c => match exec c s with
    | .next t => t
    | .fault _ => s
    | .refused _ => s) s

/-- The commands of the events that may belong to a second of the lease clock, in ascending address order. -/
def eventsOfTheSecond : List Instr :=
  (List.finRange 112).flatMap (fun p => [.expiry p, .endOfQuarantine p]) ++ [.adoptionWindowClose]

/-- The commands of the events of the protocol timers, in ascending address order. -/
def eventsOfTheMillisecond : List Instr :=
  (List.finRange 112).flatMap fun p => [.offerTimeout p, .probeTimeout p]

/-- The state once the oldest report is taken off. -/
def taken (s : State) (rest : List Report) : State := { s with bus := { s.bus with reports := rest } }

/-- An entry with another lease and its change mark set, and a free list and slots with it; nothing else differs. -/
def moved (s : State) (p : Pool) (l : Lease) (fl : List Pool) (slots : Vector (Option OfferSlot) 8) : State :=
  { s with lease := { s.lease with
    table := s.lease.table.set p { s.entry p with lease := l, mark := true }
    freeList := fl
    slots := slots } }

/-- An entry with other fields of its lease and all else as it was, its mark included. -/
def refreshed (s : State) (p : Pool) (l : Lease) : State :=
  { s with lease := { s.lease with table := s.lease.table.set p { s.entry p with lease := l } } }

/-- A message behind all others of the outbound queue. -/
def queued (s : State) (m : Message) : State := { s with bus := { s.bus with queue := s.bus.queue ++ [m] } }

/-- The REFUSE(REVOKED) for a tag, if a place is neither occupied nor reserved (R39, R96). -/
def revoked (s : State) (t : Tag) : State :=
  if s.bus.queue.length + s.bus.reserved < 8 then queued s (.refuse 0x0F t .revoked) else s

/-- `u` is `s` with a held entry withdrawn from a tag (R13, R71, R73): RESERVED if pinned, otherwise QUARANTINE until now
plus the quarantine period, or, with a period of 0, FREE at the tail with that last holder. -/
def Withdrawn (s : State) (p : Pool) (t : Tag) (slots : Vector (Option OfferSlot) 8) (u : State) : Prop :=
  (s.store.pinned p = true → u = moved s p .reserved s.lease.freeList slots) ∧
  (s.store.pinned p = false → s.lease.timing.quarantine = 0 →
    u = moved s p (.free (some t)) (s.lease.freeList ++ [p]) slots) ∧
  (s.store.pinned p = false → s.lease.timing.quarantine ≠ 0 →
    u = moved s p (.quarantine t (s.nowPlus s.lease.timing.quarantine.toNat)) s.lease.freeList slots)

/-- The tag holds no entry (3.4). -/
def HoldsNothing (s : State) (t : Tag) : Prop := ∀ p : Pool, (s.leaseOf p).holder ≠ some t

/-- The shadow holds no binding of the tag. -/
def Unbound (s : State) (t : Tag) : Prop := ∀ (k : BindSlot) (b : Binding), s.store.shadow[k] = some b → b.tag ≠ t

/-- The entry has a notice waiting (R115). -/
def Noticed (s : State) (p : Pool) : Prop :=
  (∃ t r, (s.entry p).evict = .waiting t r) ∨ ∃ t c n, s.leaseOf p = .stale t c n .due

/-- A cause flag set, whatever its enable, and nothing else (R186). -/
def flagged (s : State) (f : Latched) : State := { s with att := { s.att with latched := f } }

/-- FAULT with the watch stopped, and nothing else (R118). -/
def inFault (s : State) : State := { s with bus := { s.bus with engine := .fault, watch := .stopped } }

/-- The transceiver in another state, and nothing else (R103). -/
def inEngine (s : State) (e : Engine) : State := { s with bus := { s.bus with engine := e } }

/-- The reply buffer READY with a reply, and nothing else (7.3). -/
def replied (s : State) (status : ReplyStatus) (code : RequestCode) (data : List Byte) : State :=
  { s with port := { s.port with buffer := .ready ⟨status, code.byte, data⟩ } }

/-- The current message reaches its outcome (R117): a queued reply leaves the queue, a notice is no longer current, and the
outcome is reported. -/
def ended (s : State) (m : Message) (acked : Bool) : State :=
  { s with bus := { s.bus with
    queue := match s.bus.current with
      | some ⟨.head, _⟩ => s.bus.queue.tail
      | _ => s.bus.queue
    current := none
    reports := s.bus.reports ++ [.outcome m acked] } }

/-- One more attempt of the current message (R116): counted, or, where it is the eighth, the drop. -/
def attempted (s : State) (c : Current) (m : Message) : State :=
  if c.attempts + 1 < 8 then { s with bus := { s.bus with current := some { c with attempts := c.attempts + 1 } } }
  else ended s m false

/-- The request and parameters that a host command carries (10.4). -/
def hostRequest : Instr → Option (RequestCode × List Byte)
  | .nop ps => some (.nop, ps)
  | .ident ps => some (.ident, ps)
  | .status ps => some (.status, ps)
  | .acknowledge ps => some (.acknowledge, ps)
  | .enable ps => some (.enable, ps)
  | .lookupAddress ps => some (.lookupAddress, ps)
  | .lookupAddressClear ps => some (.lookupAddress, ps)
  | .lookupTag ps => some (.lookupTag, ps)
  | .scan ps => some (.scan, ps)
  | .freeList ps => some (.freeList, ps)
  | .revoke ps => some (.revoke, ps)
  | .withholdOn ps => some (.withhold, ps)
  | .withholdOff ps => some (.withhold, ps)
  | .classSet ps => some (.classSet, ps)
  | .classGet ps => some (.classGet, ps)
  | .timingSet ps => some (.timingSet, ps)
  | .timingGet ps => some (.timingGet, ps)
  | .bind ps => some (.bind, ps)
  | .unbind ps => some (.unbind, ps)
  | .bindingRead ps => some (.bindingRead, ps)
  | .restart ps _ _ => some (.restart, ps)
  | _ => none

/-- The parameter length of a request (chapter 8, 10.4). -/
def paramLength : RequestCode → Nat
  | .nop => 0
  | .ident => 0
  | .status => 0
  | .acknowledge => 1
  | .enable => 1
  | .lookupAddress => 2
  | .lookupTag => 6
  | .scan => 0
  | .freeList => 1
  | .revoke => 1
  | .withhold => 2
  | .classSet => 5
  | .classGet => 1
  | .timingSet => 8
  | .timingGet => 0
  | .bind => 9
  | .unbind => 6
  | .bindingRead => 1
  | .restart => 0

/-- The report that a node-request command takes (R109). -/
def nodeReport : Instr → Option Report
  | .join t c h => some (.request 0x0F (.join t c h))
  | .claim t a => some (.request 0x0F (.claim t a))
  | .renew src t c => some (.request (poolByte src) (.renew t c))
  | .release src t => some (.request (poolByte src) (.release t))
  | .resolve src q => some (.request src (.resolve q))
  | .whois src a => some (.request src (.whois a))
  | _ => none

/-- The commands that reset the part or build its lease table anew. -/
def isReset : Instr → Bool
  | .hardReset _ _ => true
  | .powerLoss _ => true
  | .scanEnd => true
  | .restart _ _ _ => true
  | _ => false

/-- The commands that act on a part without supply or in reset: its resets, its supply and the level of HSEL_N. -/
def actsWithoutRunning : Instr → Bool
  | .hardReset _ _ => true
  | .hardResetEnd => true
  | .powerLoss _ => true
  | .hselNFall _ => true
  | .hselNRise _ _ => true
  | _ => false

/-- The commands that may change the binding store (chapter 6). -/
def touchesStore : Instr → Bool
  | .hardReset _ _ => true
  | .hardResetEnd => true
  | .powerLoss _ => true
  | .scanSectorErase _ => true
  | .scanRepair _ _ _ _ => true
  | .scanEnd => true
  | .bind _ => true
  | .unbind _ => true
  | .imageProgram _ => true
  | .validMark _ => true
  | .targetErase _ => true
  | .supersededErase _ => true
  | _ => false

/-- The commands that may change the host port: the resets, the frames, and the requests that it hands on. -/
def touchesPort (c : Instr) : Bool :=
  match c with
  | .hardReset _ _ => true
  | .powerLoss _ => true
  | .hselNFall _ => true
  | .hselNRise _ _ => true
  | _ => (hostRequest c).isSome

/-- The commands that may set or clear a cause flag or write an enable (9.1). -/
def touchesAttention : Instr → Bool
  | .hardReset _ _ => true
  | .powerLoss _ => true
  | .scanEnd => true
  | .restart _ _ _ => true
  | .snoopReport _ => true
  | .join _ _ _ => true
  | .stuckBus => true
  | .transactionReceived _ => true
  | .validMark _ => true
  | .targetErase _ => true
  | .supersededErase _ => true
  | .hselNRise _ _ => true
  | .acknowledge _ => true
  | .enable _ => true
  | _ => false

/-- The commands on which the transceiver changes its state (R103). -/
def movesEngine : Instr → Bool
  | .hardReset _ _ => true
  | .powerLoss _ => true
  | .restart _ _ _ => true
  | .busStartByOther => true
  | .ownStart => true
  | .arbitrationLost _ => true
  | .transactionReceived _ => true
  | .brokenTransaction _ => true
  | .busStop => true
  | .busIdleGap => true
  | .ownTransmissionAck => true
  | .attempt _ => true
  | .stuckBus => true
  | .faultExit => true
  | _ => false

end Sys2Proof.Safety
end

