-- ==== Sys2Proof/Certificates/Slice0/Obligations.lean ====
section
/-! DEFINITION. The statements for the provers. Each is about every state, unless it names a law as its premise. -/

open Sys2Proof Sys2Proof.Machine Sys2Proof.Safety

/-! ### The step -/

/-- A step with a command waiting is the effect of the front command on the state with the queue's rest (log 1). -/
def Obligations.StepRunsTheFrontCommand : Prop :=
  ∀ (s : State) (c : Instr) (rest : List Instr),
    s.pending = c :: rest → step s = exec c { s with pending := rest }

/-- A step on an empty queue ends a millisecond: the events of the protocol timers that have run out are taken, as their
commands take them, and then every running timer has one millisecond less remaining; nothing else changes (R5). That the
empty queue stands for a millisecond (log 1), and the order of those events (log 6), are the model's choice. -/
def Obligations.EmptyQueueIsOneMillisecond : Prop :=
  ∀ s : State, s.pending = [] → ∃ t, step s = .next t ∧
    (¬ Serving s → t = s) ∧
    (Serving s →
      let u := doing eventsOfTheMillisecond s
      ((∀ p, (∀ c h n, s.leaseOf p ≠ .stale h c n (.waiting 0)) ∧ ∀ h c k o, s.leaseOf p = .offered h c k →
        s.lease.slots[k] = some o → o.phase ≠ .waiting 0) → u = s) ∧
      t = { u with lease := { u.lease with table := t.lease.table, slots := t.lease.slots } } ∧
      (∀ k : SlotId, t.lease.slots[k] = match u.lease.slots[k] with
        | none => none
        | some o => some { o with phase := match o.phase with
            | .queued => .queued
            | .waiting n => .waiting (n - 1) }) ∧
      ∀ p : Pool, t.entry p = match u.leaseOf p with
        | .stale h c n (.waiting m) => { u.entry p with lease := .stale h c n (.waiting (m - 1)) }
        | _ => u.entry p)

/-- Every command answers a next state, and leaves the queue of waiting commands as it is. That a command whose event cannot
occur answers the state unchanged (log 2), and the queue itself (log 21), are the model's. -/
def Obligations.EveryCommandAnswersAndKeepsTheQueue : Prop :=
  ∀ (c : Instr) (s : State), ∃ t, exec c s = .next t ∧ t.pending = s.pending

/-- Without supply or in reset a command changes nothing, but for the resets, the supply and the select pin (R121, R151):
that it answers the state unchanged is the model's reading (log 2). Before the lease engine is ready no command reaches its
block, but for a reset and the end of the scan (R15, R157). -/
def Obligations.PartNotRunningOrNotReadyTakesNoCommand : Prop :=
  (∀ (c : Instr) (s : State), s.power ≠ .running → actsWithoutRunning c = false → exec c s = .next s) ∧
  (∀ (c : Instr) (s t : State), GateLaw s → s.lease.ready = false →
     (∀ spd cut, c ≠ .hardReset spd cut) → (∀ cut, c ≠ .powerLoss cut) → c ≠ .scanEnd →
     exec c s = .next t → t.lease = s.lease)

/-- A request event that the port does not hold, and a node request that is not the oldest report, do not occur: each request
reaches its owner once (R109, R158; log 2). -/
def Obligations.RequestsAreTakenOnlyWhereHandedOver : Prop :=
  ∀ (c : Instr) (s : State),
    (∀ code ps, hostRequest c = some (code, ps) → s.port.buffer ≠ .pending code ps → exec c s = .next s) ∧
    ∀ r, nodeReport c = some r → s.bus.reports.head? ≠ some r → exec c s = .next s

/-! ### Resets and the start-up scan -/

/-- A hard reset leaves every block at its reset value over the flash that the cut leaves; a loss of supply loses the same
(R121, R123, R129, R145, R161, R191). The cut leaves the flash as it was in READY and DEGRADED and before the scan begins,
and otherwise changes no sector but the one under operation; a cut erase leaves its sector partial or as it was, and never
erased (R145). What else a cut sector may read as (log 10), which sector a repair tries (log 9), and what the blocks show without supply (log 14) are the model's. So is what the lease engine's fields
show until the scan ends: the reading of R167, over the values of R15, R34, R49, R51 and R53 (log 25). -/
def Obligations.HardResetAndPowerLoss : Prop :=
  ∀ (s : State) (spd : Bool) (cut : FlashCut),
    let lost (p : Power) (fast : Bool) : State :=
      { pending := s.pending
        power := p
        lease := ⟨false, Vector.replicate 112 ⟨.free none, .absent, 0, false⟩, List.finRange 112, Vector.replicate 8 none,
          classDefaults, timingDefaults, 0, none⟩
        bus := ⟨.idle .settling, fast, [], none, [], .started 0, none⟩
        store := ⟨s.store.cutFlash cut, Vector.replicate 32 none, .scanning ⟨.notBegun, false, false⟩, Vector.replicate 4 none,
          Vector.replicate 5 false, Vector.replicate 5 false, .none⟩
        port := ⟨s.port.hselLow, none, .empty⟩
        att := ⟨⟨false, false, false, false, false, false, false⟩, 0x01⟩ }
    exec (.hardReset spd cut) s = .next (lost .held spd) ∧
    (s.power ≠ .off → exec (.powerLoss cut) s = .next (lost .off s.bus.fast)) ∧
    (s.power = .off → exec (.powerLoss cut) s = .next s) ∧
    let left := s.store.cutFlash cut
    let cutErase (k : SectorId) : Prop :=
      (classify (left[k]) = .partially ∨ left[k] = s.store.flash[k]) ∧ left[k] ≠ blankSector
    (s.store.mode = .ready ∨ s.store.mode = .degraded ∨ (∃ i x, s.store.mode = .scanning ⟨.notBegun, i, x⟩) →
      left = s.store.flash) ∧
    (∀ r, s.store.mode = .rewriting r → ∀ k : SectorId,
      (r.step = .eraseTarget → k = r.target → cutErase k) ∧
      (∀ b q, r.step = .eraseOld b → s.store.current[r.logical] = some (k, q) → cutErase k) ∧
      ((∀ b, r.step ≠ .eraseOld b) → k ≠ r.target → left[k] = s.store.flash[k]) ∧
      ((∃ b, r.step = .eraseOld b) → (∀ q, s.store.current[r.logical] ≠ some (k, q)) → left[k] = s.store.flash[k])) ∧
    (∀ j rest i x, s.store.mode = .scanning ⟨.erasing (j :: rest), i, x⟩ → cutErase j ∧
      ∀ k : SectorId, k ≠ j → left[k] = s.store.flash[k]) ∧
    ∀ todo tried i x, s.store.mode = .scanning ⟨.repairing todo tried, i, x⟩ ∨
        s.store.mode = .scanning ⟨.erasing [], i, x⟩ ∧ todo = s.store.loadShadow.repairs ∧ tried = [] →
      (todo = [] → left = s.store.flash) ∧
      ∀ l rest, todo = l :: rest → ∀ k : SectorId,
        ((∃ q, s.store.current[l] = some (k, q)) → s.store.erased[k] = false →
          classify (left[k]) = .partially ∨ left[k] = s.store.flash[k]) ∧
        (¬ (s.store.erased[k] = true ∧ k ∉ tried ∧ ∀ j : SectorId, j < k → s.store.erased[j] = true → j ∈ tried) →
          (∀ q, s.store.current[l] ≠ some (k, q)) → left[k] = s.store.flash[k])

/-- When a hard reset ends, every sector is classified; of the valid sectors of a logical number the one newer than every
other is kept, and where there is none the lowest-numbered, which is noted; all other valid sectors and the partial ones
are to be erased, each once (R146). -/
def Obligations.HardResetEndBeginsTheScan : Prop :=
  ∀ s : State, s.power = .held → ∃ (t : State) (todo : List SectorId) (clash : Bool), exec .hardResetEnd s = .next t ∧
    t = { s with power := .running, store := { s.store with
      mode := .scanning ⟨.erasing todo, clash, false⟩, current := t.store.current, erased := t.store.erased } } ∧
    (∀ k : SectorId, t.store.erased[k] = true ↔ s.store.flash[k] = blankSector) ∧
    (∀ (l : LogicalId) (k : SectorId) (q : Half), t.store.current[l] = some (k, q) ↔
      validImage (s.store.flash[k]) = some (l, q) ∧
      ((∀ (j : SectorId) (r : Half), j ≠ k → validImage (s.store.flash[j]) = some (l, r) → newer q r = true) ∨
        (∀ (i : SectorId) (x : Half), validImage (s.store.flash[i]) = some (l, x) →
          ∃ (j : SectorId) (r : Half), j ≠ i ∧ validImage (s.store.flash[j]) = some (l, r) ∧ newer x r = false) ∧
        ∀ (j : SectorId) (r : Half), validImage (s.store.flash[j]) = some (l, r) → k ≤ j)) ∧
    todo.Nodup ∧
    (∀ k : SectorId, k ∈ todo ↔ s.store.flash[k] ≠ blankSector ∧ ¬ IsCurrent t.store k) ∧
    (clash = true ↔ ∃ l : LogicalId, (∃ (k : SectorId) (q : Half), validImage (s.store.flash[k]) = some (l, q)) ∧
      ∀ (i : SectorId) (x : Half), validImage (s.store.flash[i]) = some (l, x) →
        ∃ (j : SectorId) (r : Half), j ≠ i ∧ validImage (s.store.flash[j]) = some (l, r) ∧ newer x r = false)

/-- An erase of the scan: read back blank, the sector joins the erased set; otherwise the bad set, and a valid sector stays
valid (R125, R146). A repair of the scan: the new image on the lowest erased sector not yet tried and the old one erased,
with one retry, after which it is bad and the repair stands; a target that fails left for the next; and, with no erased
sector left, the logical sector given up (R140, R148). Which sector comes next, and what a failed erase leaves, are the
model's reading (logs 8 to 10). -/
def Obligations.ScanErasesAndRepairs : Prop :=
  (∀ (s : State) (k : SectorId) (rest : List SectorId) (inconsistent touched : Bool) (reads : Sector),
     s.power = .running → s.store.mode = .scanning ⟨.erasing (k :: rest), inconsistent, touched⟩ →
     (reads = blankSector → exec (.scanSectorErase reads) s = .next { s with store := { s.store with
       flash := s.store.flash.set k blankSector
       erased := s.store.erased.set k true
       mode := .scanning ⟨.erasing rest, inconsistent, true⟩ } }) ∧
     (reads ≠ blankSector → ∃ left, exec (.scanSectorErase reads) s = .next { s with store := { s.store with
         flash := s.store.flash.set k left
         bad := s.store.bad.set k true
         mode := .scanning ⟨.erasing rest, inconsistent, true⟩ } } ∧
       validImage left = validImage (s.store.flash[k]))) ∧
  (∀ (s : State) (l : LogicalId) (rest : List LogicalId) (tried : List SectorId) (inconsistent touched mark : Bool)
     (k : SectorId) (q : Half) (image erase retry : Sector),
     s.power = .running → s.store.mode = .scanning ⟨.repairing (l :: rest) tried, inconsistent, touched⟩ →
     s.store.current[l] = some (k, q) →
     (∀ t : SectorId, t ≠ k → s.store.erased[t] = true → t ∉ tried →
         (∀ j : SectorId, j < t → s.store.erased[j] = true → j ∈ tried) →
       ({ image with mark := false } = programmed l (q + 1) false (imageSlots s.store.shadow l) → mark = true →
           erase = blankSector →
         exec (.scanRepair image mark erase retry) s = .next { s with store := { s.store with
           flash := (s.store.flash.set t (programmed l (q + 1) true (imageSlots s.store.shadow l))).set k blankSector
           erased := (s.store.erased.set t false).set k true
           current := s.store.current.set l (some (t, q + 1))
           mode := .scanning ⟨.repairing rest [], inconsistent, true⟩ } }) ∧
       ({ image with mark := false } = programmed l (q + 1) false (imageSlots s.store.shadow l) → mark = true →
           erase ≠ blankSector → retry = blankSector →
         exec (.scanRepair image mark erase retry) s = .next { s with store := { s.store with
           flash := (s.store.flash.set t (programmed l (q + 1) true (imageSlots s.store.shadow l))).set k blankSector
           erased := (s.store.erased.set t false).set k true
           current := s.store.current.set l (some (t, q + 1))
           mode := .scanning ⟨.repairing rest [], inconsistent, true⟩ } }) ∧
       ({ image with mark := false } = programmed l (q + 1) false (imageSlots s.store.shadow l) → mark = true →
           erase ≠ blankSector → retry ≠ blankSector →
         ∃ left, exec (.scanRepair image mark erase retry) s = .next { s with store := { s.store with
             flash := (s.store.flash.set t (programmed l (q + 1) true (imageSlots s.store.shadow l))).set k left
             erased := s.store.erased.set t false
             bad := s.store.bad.set k true
             current := s.store.current.set l (some (t, q + 1))
             mode := .scanning ⟨.repairing rest [], inconsistent, true⟩ } } ∧
           validImage left = validImage (s.store.flash[k])) ∧
       (¬ ({ image with mark := false } = programmed l (q + 1) false (imageSlots s.store.shadow l) ∧ mark = true) →
         ∃ u, exec (.scanRepair image mark erase retry) s = .next u ∧
           u.store.mode = .scanning ⟨.repairing (l :: rest) (t :: tried), inconsistent, true⟩ ∧
           u.store.current = s.store.current ∧ u.store.shadow = s.store.shadow ∧
           (erase = blankSector → u.store.erased = s.store.erased ∧ u.store.bad = s.store.bad ∧
             u.store.flash = s.store.flash.set t blankSector) ∧
           (erase ≠ blankSector → u.store.erased = s.store.erased.set t false ∧ u.store.bad = s.store.bad.set t true ∧
             ∃ left, u.store.flash = s.store.flash.set t left ∧ validImage left = none))) ∧
     ((∀ j : SectorId, s.store.erased[j] = true → j ∈ tried) →
       ∃ u, exec (.scanRepair image mark erase retry) s = .next u ∧
         u.store.mode = .scanning ⟨.repairing rest [], inconsistent, true⟩ ∧
         u.store.current = s.store.current.set l none ∧
         (∀ j : BindSlot, u.store.shadow[j] = if logicalOf j = l then none else s.store.shadow[j]) ∧
         (erase = blankSector → u.store.erased = s.store.erased.set k true ∧ u.store.bad = s.store.bad ∧
           u.store.flash = s.store.flash.set k blankSector) ∧
         (erase ≠ blankSector → u.store.erased = s.store.erased ∧ u.store.bad = s.store.bad.set k true ∧
           ∃ left, u.store.flash = s.store.flash.set k left ∧ validImage left = validImage (s.store.flash[k]))))

/-- The load of the shadow at the end of the erases: a slot of a current sector is loaded if it reads as a binding that
repeats no tag and no address of a lower slot already loaded; a logical sector is repaired exactly if one of its programmed
slots was rejected, and the scan is then noted inconsistent (R147, R148). The load is part of the first event after the last
erase, SCAN_REPAIR where there is a repair and SCAN_END where there is none: the table has no row for it, and this place is
the model's (log 15). -/
def Obligations.ScanLoadsTheShadow : Prop :=
  (∀ st : Store, ShadowLaw { st with shadow := st.loadShadow.shadow } ∧
    (∀ (k : BindSlot) (b : Binding), st.loadShadow.shadow[k] = some b ↔
      st.cellOf k = .written b.tag (poolByte b.addr) (byteOf b.cls.val) ∧ validTag b.tag = true ∧
      ∀ (j : BindSlot) (d : Binding), j < k → st.loadShadow.shadow[j] = some d → d.tag ≠ b.tag ∧ d.addr ≠ b.addr) ∧
    ∀ l : LogicalId, l ∈ st.loadShadow.repairs ↔
      ∃ k : BindSlot, logicalOf k = l ∧ st.cellOf k ≠ .blank ∧ st.loadShadow.shadow[k] = none) ∧
  ∀ (s : State) (inconsistent touched : Bool), s.power = .running →
    s.store.mode = .scanning ⟨.erasing [], inconsistent, touched⟩ →
    let repairs := s.store.loadShadow.repairs
    let loaded : State := { s with store := { s.store with
      shadow := s.store.loadShadow.shadow
      mode := .scanning ⟨.repairing repairs [], inconsistent || !repairs.isEmpty, touched⟩ } }
    repairs.Pairwise (· < ·) ∧
    ∀ (image : Sector) (mark : Bool) (erase retry : Sector),
      (repairs = [] → exec .scanEnd s = exec .scanEnd loaded ∧ exec (.scanRepair image mark erase retry) s = .next s) ∧
      (repairs ≠ [] → exec .scanEnd s = .next s ∧
        exec (.scanRepair image mark erase retry) s = exec (.scanRepair image mark erase retry) loaded)

/-- The end of the scan, as one event: the store state by the erased count, the last result, the lease table built from the
shadow, defaults, clock 0, the window open to 120, START and STORE set, and the lease engine ready (R15, R18, R149). That
reports not yet taken are discarded in this event is the model's reading (log 12). From State.reset, whose flash log 3 sets
erased, the scan of five erased sectors, with the load of log 15: READY, no binding, CLEAN, all addresses free. -/
def Obligations.ScanEndBuildsTheTable : Prop :=
  (∀ (s : State) (tried : List SectorId) (inconsistent touched : Bool),
     s.power = .running → s.store.mode = .scanning ⟨.repairing [] tried, inconsistent, touched⟩ →
     ∃ t, exec .scanEnd s = .next t ∧
       t.pending = s.pending ∧ t.power = s.power ∧ t.port = s.port ∧ t.bus = { s.bus with reports := [] } ∧
       t.att = { s.att with latched := { s.att.latched with start := true, store := true } } ∧
       t.store = { s.store with
         mode := if 0 < s.store.erasedCount then .ready else .degraded
         last := .scan (if inconsistent then .inconsistent else if touched then .recovered else .clean) } ∧
       t.lease.ready = true ∧ t.lease.clock = 0 ∧ t.lease.window = some 120 ∧
       t.lease.classes = #v[⟨600, 2, true⟩, ⟨60, 1, true⟩, ⟨3600, 2, false⟩, ⟨65535, 3, false⟩] ∧
       t.lease.timing = ⟨300, 2000, 30, 120⟩ ∧
       (∀ k : SlotId, t.lease.slots[k] = none) ∧
       (∀ p : Pool, t.entry p = ⟨if t.store.pinned p then .reserved else .free none, .absent, 0, false⟩) ∧
       t.lease.freeList = (List.finRange 112).filter (fun p => !t.store.pinned p)) ∧
  (∃ t, exec .scanEnd State.reset = .next t ∧ t.store.mode = .ready ∧ t.store.erasedCount = 5 ∧ t.store.bindingCount = 0 ∧
     t.store.last = .scan .clean ∧ t.lease.freeList = List.finRange 112 ∧ t.causeFlags = 0x41 ∧ t.atnLow = true)

/-! ### Clock and timers -/

/-- The lease clock rises by one, and no event outlives its second: those that belong to the second that ends and have not
been taken are taken first, as their commands take them (R5, R49, R50). The window closes in the second of its closing point
and in no other; the end of quarantine likewise sends the entry to FREE at the tail with its last holder (R50, R72, R87). The
order of the events that the tick takes is the model's choice (log 6), and past 32 bits the clock is a free value (log 5). -/
def Obligations.ClockWindowAndEndOfQuarantine : Prop :=
  ∀ s : State, Serving s →
    (s.lease.clock.toNat + 1 < 2 ^ 32 →
      let u := doing eventsOfTheSecond s
      exec .leaseClockTick s = .next { u with lease := { u.lease with clock := s.lease.clock + 1 } } ∧
      ((∀ p, (s.leaseOf p).deadline ≠ some s.lease.clock) → s.lease.window ≠ some s.lease.clock → u = s)) ∧
    (s.lease.clock.toNat + 65536 < 2 ^ 32 → ∀ t, exec .leaseClockTick s = .next t →
      t.lease.window ≠ some s.lease.clock ∧ ∀ p, (t.leaseOf p).deadline ≠ some s.lease.clock) ∧
    (s.lease.window = some s.lease.clock →
      exec .adoptionWindowClose s = .next { s with lease := { s.lease with window := none } }) ∧
    (s.lease.window ≠ some s.lease.clock → exec .adoptionWindowClose s = .next s) ∧
    (∀ p t, s.leaseOf p = .quarantine t s.lease.clock → s.store.pinned p = false →
      exec (.endOfQuarantine p) s =
        .next (moved s p (.free (some t)) (s.lease.freeList ++ [p]) s.lease.slots)) ∧
    ∀ p, (∀ t, s.leaseOf p ≠ .quarantine t s.lease.clock) → exec (.endOfQuarantine p) s = .next s

/-- A LIVE lease expires in the second of its deadline: to STALE with the class's probes and a PROBE due, or, without probes,
withdrawn from its holder; an entry that carries no LIVE deadline, or another one, does not expire (R50, R64, R73). -/
def Obligations.ExpiryOfALease : Prop :=
  ∀ (s : State) (p : Pool), Serving s →
    (∀ t c, s.leaseOf p = .live t c s.lease.clock →
      ((s.lease.classes[c]).probes ≠ 0 → exec (.expiry p) s =
        .next (moved s p (.stale t c (s.lease.classes[c]).probes .due) s.lease.freeList s.lease.slots)) ∧
      ((s.lease.classes[c]).probes = 0 →
        ∃ u, exec (.expiry p) s = .next u ∧ Withdrawn s p t s.lease.slots u)) ∧
    ((∀ t c, s.leaseOf p ≠ .live t c s.lease.clock) → exec (.expiry p) s = .next s)

/-- An offer lapses when its timer has run out, and when a copy of it is dropped before any copy has completed: to its
return state, as the pinned flag governs it, with its slot empty; the drop of a copy has no effect where the slot is WAITING
and where no slot matches (R36, R37, R38). -/
def Obligations.LapseOfAnOffer : Prop :=
  (∀ (s v : State) (p : Pool) (t : Tag) (c : ClassId) (k : SlotId) (o : OfferSlot) (command : Instr),
    s.leaseOf p = .offered t c k → s.lease.slots[k] = some o → o.tag = t → o.addr = p →
    (Serving s ∧ o.phase = .waiting 0 ∧ command = .offerTimeout p ∧ v = s ∨
      ∃ rest c' m, Reported s (.outcome (.offer t p c' m) false) rest ∧ o.phase = .queued ∧ command = .offerDrop t p ∧
        v = taken s rest) →
    (o.ret = .free → s.store.pinned p = false →
      exec command s = .next (moved v p (.free none) (p :: s.lease.freeList) (s.lease.slots.set k none))) ∧
    (o.ret = .reserved → s.store.pinned p = false →
      exec command s = .next (moved v p (.free none) (s.lease.freeList ++ [p]) (s.lease.slots.set k none))) ∧
    (o.ret ≠ .quarantine → s.store.pinned p = true →
      exec command s = .next (moved v p .reserved s.lease.freeList (s.lease.slots.set k none))) ∧
    (o.ret = .quarantine → ∃ u, exec command s = .next u ∧ Withdrawn v p t (s.lease.slots.set k none) u)) ∧
  ∀ (s : State) (rest : List Report) (p : Pool) (t : Tag) (c' : ClassId) (m : Half),
    Reported s (.outcome (.offer t p c' m) false) rest →
    (∀ c k o n, s.leaseOf p = .offered t c k → s.lease.slots[k] = some o → o.phase = .waiting n →
      exec (.offerDrop t p) s = .next (taken s rest)) ∧
    (OfferLaw s → (∀ c k, s.leaseOf p ≠ .offered t c k) → exec (.offerDrop t p) s = .next (taken s rest))

/-- A probe timeout, and the drop of a PROBE that still matches, use up one probe: one less left and a PROBE due again
without a mark, or, at the last, the address withdrawn; the drop of a PROBE that no longer matches has no effect (R67,
R68). -/
def Obligations.UnansweredProbe : Prop :=
  (∀ (s v : State) (p : Pool) (t : Tag) (c : ClassId) (n : Fin 4) (phase : ProbePhase) (command : Instr),
    s.leaseOf p = .stale t c n phase →
    (Serving s ∧ phase = .waiting 0 ∧ command = .probeTimeout p ∧ v = s ∨
      ∃ rest, Reported s (.outcome (.probe p t) false) rest ∧ phase = .sending ∧ command = .probeDrop p t ∧
        v = taken s rest) →
    (1 < n.val → exec command s = .next (refreshed v p (.stale t c (n - 1) .due))) ∧
    (n.val ≤ 1 → ∃ u, exec command s = .next u ∧ Withdrawn v p t s.lease.slots u)) ∧
  ∀ (s : State) (rest : List Report) (p : Pool) (t : Tag), Reported s (.outcome (.probe p t) false) rest →
    (∀ c n, s.leaseOf p ≠ .stale t c n .sending) → exec (.probeDrop p t) s = .next (taken s rest)

/-- Outcome reports that start a timer, clear a notice, or have no effect: an OFFER completed starts the offer timer of its
slot from the full timeout; a PROBE completed starts the probe timer if the entry still matches; the outcome of an EVICT
clears the field in transmission, unless a newer notice has replaced the one sent; that of a GRANT, REFUSE or ANSWER does
nothing (R35, R66, R94, R117). That a newer notice in transmission is told by its EVICT being the current message, or by its
own outcome still waiting, is the model's reading (log 24). -/
def Obligations.OutcomeReports : Prop :=
  ∀ (s : State) (rest : List Report) (p : Pool) (t : Tag),
    (∀ c' m, Reported s (.outcome (.offer t p c' m) true) rest →
      (∀ c k o, s.leaseOf p = .offered t c k → s.lease.slots[k] = some o → o.tag = t → o.addr = p →
        exec (.offerCompletion t p) s = .next { taken s rest with lease := { s.lease with
          slots := s.lease.slots.set k (some { o with phase := .waiting s.lease.timing.offer.toNat }) } }) ∧
      ((∀ c k, s.leaseOf p ≠ .offered t c k) → OfferLaw s →
        exec (.offerCompletion t p) s = .next (taken s rest))) ∧
    (Reported s (.outcome (.probe p t) true) rest →
      (∀ c n, s.leaseOf p = .stale t c n .sending → exec (.probeCompletion p t) s =
        .next (refreshed (taken s rest) p (.stale t c n (.waiting s.lease.timing.probe.toNat)))) ∧
      ((∀ c n, s.leaseOf p ≠ .stale t c n .sending) → exec (.probeCompletion p t) s = .next (taken s rest))) ∧
    (∀ r acked, Reported s (.outcome (.evict p t r) acked) rest →
      let newer := (∃ n, ∃ u k, s.bus.current = some ⟨.notice (.evict p u k), n⟩) ∨ ∃ u k a, .outcome (.evict p u k) a ∈ rest
      ((∃ u k, (s.entry p).evict = .sending u k) → ¬ newer →
        exec (.evictOutcome p) s = .next { taken s rest with lease := { s.lease with
          table := s.lease.table.set p { s.entry p with evict := .absent } } }) ∧
      (newer ∨ (∀ u k, (s.entry p).evict ≠ .sending u k) → exec (.evictOutcome p) s = .next (taken s rest))) ∧
    ∀ m acked, Reported s (.outcome m acked) rest → m.isPlainReply = true →
      exec .replyOutcome s = .next (taken s rest)

/-! ### Joining -/

/-- The order of address choice, case by case (R24, R26 to R31). -/
def Obligations.OrderOfAddressChoice : Prop :=
  ∀ (s : State) (t : Tag) (h : Byte), TableLaws s → ShadowLaw s.store →
    (∀ p c k, s.leaseOf p = .offered t c k → s.chooseAddress t h = .duplicate p) ∧
    (∀ p c d, s.leaseOf p = .live t c d → s.chooseAddress t h = .offer p .quarantine) ∧
    (∀ p c n f, s.leaseOf p = .stale t c n f → s.chooseAddress t h = .offer p .quarantine) ∧
    (HoldsNothing s t →
      (∀ (j : BindSlot) (b : Binding), s.store.shadow[j] = some b → b.tag = t →
        s.chooseAddress t h = .offer b.addr .reserved) ∧
      (Unbound s t →
        (∀ p d, s.leaseOf p = .quarantine t d → (∀ q d', q < p → s.leaseOf q ≠ .quarantine t d') →
          s.chooseAddress t h = .offer p .quarantine) ∧
        ((∀ p d, s.leaseOf p ≠ .quarantine t d) →
          (∀ p last, poolOfByte h = some p → s.leaseOf p = .free last → s.chooseAddress t h = .offer p .free) ∧
          ((∀ p last, poolOfByte h = some p → s.leaseOf p ≠ .free last) →
            (∀ p, s.leaseOf p = .free (some t) → (∀ q, q < p → s.leaseOf q ≠ .free (some t)) →
              s.chooseAddress t h = .offer p .free) ∧
            ((∀ p, s.leaseOf p ≠ .free (some t)) →
              (∀ p fl, s.lease.freeList = p :: fl → s.chooseAddress t h = .offer p .free) ∧
              (s.lease.freeList = [] → s.chooseAddress t h = .poolEmpty))))))

/-- A JOIN with a case from 2 to 7 and an empty slot makes the offer: the lowest empty slot, the class of the binding where
the address is pinned to the tag, the term as the class table stands, the entry OFFERED off the free list and marked, and
one OFFER in the request's place (R27, R32). -/
def Obligations.JoinMakesAnOffer : Prop :=
  ∀ (s : State) (rest : List Report) (t : Tag) (cls h : Byte) (c : ClassId) (p : Pool) (ret : ReturnState) (k : SlotId),
    Reported s (.request 0x0F (.join t cls h)) rest → classOfByte cls = some c → s.chooseAddress t h = .offer p ret →
    (∀ t' c' k', s.leaseOf p ≠ .offered t' c' k') →
    s.lease.slots[k] = none → (∀ j : SlotId, j < k → s.lease.slots[j] ≠ none) →
    let cls' : ClassId := match s.store.bindingOf t with
      | some b => if b.addr = p then b.cls else c
      | none => c
    let term := (s.lease.classes[cls']).term
    exec (.join t cls h) s = .next (queued
      (moved (taken s rest) p (.offered t cls' k) (if (s.leaseOf p).isFree then s.lease.freeList.erase p else s.lease.freeList)
        (s.lease.slots.set k (some ⟨t, p, cls', term, ret, .queued⟩)))
      (.offer t p cls' term))

/-- A JOIN that makes no offer: a class above 3 is refused without EXHAUST; a duplicate is answered with a copy of the OFFER
that its slot recorded; an empty pool, looked at before the slots, and full slots are refused with EXHAUST (R23, R25,
R33). -/
def Obligations.JoinWithoutAnOffer : Prop :=
  ∀ (s : State) (rest : List Report) (t : Tag) (cls h : Byte),
    Reported s (.request 0x0F (.join t cls h)) rest →
    (4 ≤ cls.toNat → exec (.join t cls h) s = .next (queued (taken s rest) (.refuse 0x0F t .badClass))) ∧
    (cls.toNat < 4 →
      (∀ p c k o, s.chooseAddress t h = .duplicate p → s.leaseOf p = .offered t c k → s.lease.slots[k] = some o →
        exec (.join t cls h) s = .next (queued (taken s rest) (.offer o.tag o.addr o.cls o.term))) ∧
      (s.chooseAddress t h = .poolEmpty → exec (.join t cls h) s =
        .next (flagged (queued (taken s rest) (.refuse 0x0F t .poolEmpty)) { s.att.latched with exhaust := true })) ∧
      (∀ p ret, s.chooseAddress t h = .offer p ret → (∀ k : SlotId, s.lease.slots[k] ≠ none) →
        exec (.join t cls h) s =
          .next (flagged (queued (taken s rest) (.refuse 0x0F t .offersFull)) { s.att.latched with exhaust := true })))

/-- A CLAIM: renewed where the tag already holds the address LIVE; made LIVE where its offer is WAITING, with the slot's
class and the term as the class table stands; otherwise refused with NO_OFFER (R40, R41, R42). -/
def Obligations.ClaimOfAnAddress : Prop :=
  ∀ (s : State) (rest : List Report) (t : Tag) (a : Byte),
    Reported s (.request 0x0F (.claim t a)) rest →
    (poolOfByte a = none → exec (.claim t a) s = .next (queued (taken s rest) (.refuse 0x0F t .noOffer))) ∧
    ∀ p, poolOfByte a = some p →
      (∀ c d, s.leaseOf p = .live t c d → exec (.claim t a) s = .next (queued
        (refreshed (taken s rest) p (.live t c (s.nowPlus (s.lease.classes[c]).term.toNat)))
        (.grant p t c (s.lease.classes[c]).term))) ∧
      (∀ c k o n, s.leaseOf p = .offered t c k → s.lease.slots[k] = some o → o.tag = t → o.addr = p →
        o.phase = .waiting n → exec (.claim t a) s = .next (queued
          (moved (taken s rest) p (.live t o.cls (s.nowPlus (s.lease.classes[o.cls]).term.toNat)) s.lease.freeList
            (s.lease.slots.set k none))
          (.grant p t o.cls (s.lease.classes[o.cls]).term))) ∧
      ((∀ c d, s.leaseOf p ≠ .live t c d) →
        (∀ t' c k o n, s.leaseOf p = .offered t' c k → s.lease.slots[k] = some o → o.tag = t → o.addr = p →
          o.phase ≠ .waiting n) →
        exec (.claim t a) s = .next (queued (taken s rest) (.refuse 0x0F t .noOffer)))

/-! ### Upkeep -/

/-- RENEW granted, lines 2 to 6 of the table of 3.4: renewal, renewal from STALE, revival, adoption, adoption of a bound
address, each with its class, its mark and one GRANT (R55 to R59). -/
def Obligations.RenewGranted : Prop :=
  ∀ (s : State) (rest : List Report) (p : Pool) (t : Tag) (cls : Byte) (c : ClassId),
    Reported s (.request (poolByte p) (.renew t cls)) rest → classOfByte cls = some c →
    let v := taken s rest
    let live (k : ClassId) : Lease := .live t k (s.nowPlus (s.lease.classes[k]).term.toNat)
    let grant (k : ClassId) : Message := .grant p t k (s.lease.classes[k]).term
    (∀ k d, s.leaseOf p = .live t k d → exec (.renew p t cls) s = .next (queued (refreshed v p (live k)) (grant k))) ∧
    (∀ k n f, s.leaseOf p = .stale t k n f →
      exec (.renew p t cls) s = .next (queued (moved v p (live k) s.lease.freeList s.lease.slots) (grant k))) ∧
    (∀ d, s.leaseOf p = .quarantine t d → HoldsNothing s t → Unbound s t →
      exec (.renew p t cls) s = .next (queued (moved v p (live c) s.lease.freeList s.lease.slots) (grant c))) ∧
    (∀ last, s.leaseOf p = .free last → HoldsNothing s t → Unbound s t →
      exec (.renew p t cls) s = .next (queued (moved v p (live c) (s.lease.freeList.erase p) s.lease.slots) (grant c))) ∧
    ∀ (j : BindSlot) (b : Binding), s.leaseOf p = .reserved → ShadowLaw s.store → s.store.shadow[j] = some b →
      b.addr = p → b.tag = t → HoldsNothing s t →
      exec (.renew p t cls) s = .next (queued (moved v p (live b.cls) s.lease.freeList s.lease.slots) (grant b.cls))

/-- RENEW refused with NO_LEASE in each situation that R60 lists; no entry, slot or place of the free list changes. -/
def Obligations.RenewRefused : Prop :=
  ∀ (s : State) (rest : List Report) (p : Pool) (t : Tag) (cls : Byte),
    Reported s (.request (poolByte p) (.renew t cls)) rest →
    (4 ≤ cls.toNat ∨
      (∃ u k d, u ≠ t ∧ s.leaseOf p = .live u k d) ∨
      (∃ u k n f, u ≠ t ∧ s.leaseOf p = .stale u k n f) ∨
      (∃ u k j, s.leaseOf p = .offered u k j) ∨
      (∃ u d, u ≠ t ∧ s.leaseOf p = .quarantine u d) ∨
      s.leaseOf p = .withheld ∨
      (s.leaseOf p = .reserved ∧
        ∀ (j : BindSlot) (b : Binding), s.store.shadow[j] = some b → b.addr = p → b.tag ≠ t) ∨
      ((s.leaseOf p).holder ≠ some t ∧ ¬ HoldsNothing s t) ∨
      (¬ Unbound s t ∧ ((∃ u d, s.leaseOf p = .quarantine u d) ∨ ∃ u, s.leaseOf p = .free u))) →
    exec (.renew p t cls) s = .next (queued (taken s rest) (.refuse (poolByte p) t .noLease))

/-- RELEASE withdraws the address from the holder of a LIVE or STALE lease; every other RELEASE has no effect; no message is
sent (R69). -/
def Obligations.ReleaseOfAnAddress : Prop :=
  ∀ (s : State) (rest : List Report) (p : Pool) (t : Tag),
    Reported s (.request (poolByte p) (.release t)) rest →
    (∀ c d, s.leaseOf p = .live t c d →
      ∃ u, exec (.release p t) s = .next u ∧ Withdrawn (taken s rest) p t s.lease.slots u) ∧
    (∀ c n f, s.leaseOf p = .stale t c n f →
      ∃ u, exec (.release p t) s = .next u ∧ Withdrawn (taken s rest) p t s.lease.slots u) ∧
    ((∀ c d, s.leaseOf p ≠ .live t c d) → (∀ c n f, s.leaseOf p ≠ .stale t c n f) →
      exec (.release p t) s = .next (taken s rest))

/-- A snoop report: renewal of a LIVE lease without a mark, of a STALE one with it, neither where the class has snoop renewal
off; on any other entry nothing while the window is open, and a conflict while it is closed: count, mark, CONFLICT, and a
quarantine begun anew (R62, R63, R83, R84). -/
def Obligations.SnoopReportTaken : Prop :=
  ∀ (s : State) (rest : List Report) (p : Pool), Reported s (.snoop p) rest →
    let v := taken s rest
    let e := s.entry p
    let count : Byte := if e.conflicts = 255 then 255 else e.conflicts + 1
    let conflict (l : Lease) : State :=
      flagged { v with lease := { s.lease with table := s.lease.table.set p { e with lease := l, conflicts := count, mark := true } } }
        { s.att.latched with conflict := true }
    (∀ t c d, e.lease = .live t c d → exec (.snoopReport p) s = .next (if (s.lease.classes[c]).snoop
      then refreshed v p (.live t c (s.nowPlus (s.lease.classes[c]).term.toNat)) else v)) ∧
    (∀ t c n f, e.lease = .stale t c n f → exec (.snoopReport p) s = .next (if (s.lease.classes[c]).snoop
      then moved v p (.live t c (s.nowPlus (s.lease.classes[c]).term.toNat)) s.lease.freeList s.lease.slots else v)) ∧
    ((∀ t c d, e.lease ≠ .live t c d) → (∀ t c n f, e.lease ≠ .stale t c n f) →
      (s.lease.window ≠ none → exec (.snoopReport p) s = .next v) ∧
      (s.lease.window = none →
        ((∀ t d, e.lease ≠ .quarantine t d) → exec (.snoopReport p) s = .next (conflict e.lease)) ∧
        (∀ t d, e.lease = .quarantine t d → s.lease.timing.quarantine ≠ 0 → exec (.snoopReport p) s =
          .next (conflict (.quarantine t (s.nowPlus s.lease.timing.quarantine.toNat)))) ∧
        (∀ t d, e.lease = .quarantine t d → s.lease.timing.quarantine = 0 → s.store.pinned p = false →
          exec (.snoopReport p) s =
            .next { conflict (.free (some t)) with lease := { (conflict (.free (some t))).lease with
              freeList := s.lease.freeList ++ [p] } })))

/-- RESOLVE: one ANSWER to the source by the first line of the table that applies, and no other change (R79, R80). WHOIS: one
ANSWER to the source with the state of the entry, the holder for LIVE and STALE only, OUTSIDE for an address that is not in
the pool, and no other change (R81). -/
def Obligations.ResolveAndWhoisAnswered : Prop :=
  (∀ (s : State) (rest : List Report) (src : Byte) (q : Tag), Reported s (.request src (.resolve q)) rest →
     OneHolderLaw s → ShadowLaw s.store →
     let answer (r : ResolveResult) (a : Byte) : State := queued (taken s rest) (.answerResolve src q r a)
     (∀ p c d, s.leaseOf p = .live q c d → exec (.resolve src q) s = .next (answer .live (poolByte p))) ∧
     (∀ p c n f, s.leaseOf p = .stale q c n f → exec (.resolve src q) s = .next (answer .stale (poolByte p))) ∧
     ((∀ p c d, s.leaseOf p ≠ .live q c d) → (∀ p c n f, s.leaseOf p ≠ .stale q c n f) →
       (∀ (j : BindSlot) (b : Binding), s.store.shadow[j] = some b → b.tag = q →
         exec (.resolve src q) s = .next (answer .boundAbsent (poolByte b.addr))) ∧
       (Unbound s q → exec (.resolve src q) s = .next (answer .unknown 0x00)))) ∧
  (∀ (s : State) (rest : List Report) (src a : Byte), Reported s (.request src (.whois a)) rest →
     let answer (k : Summary) (t : Tag) : State := queued (taken s rest) (.answerWhois src a k t)
     (a.toNat < 0x10 ∨ 0x80 ≤ a.toNat → exec (.whois src a) s = .next (answer none 0)) ∧
     ∀ p : Pool, a = poolByte p →
       (∀ t c d, s.leaseOf p = .live t c d → exec (.whois src a) s = .next (answer (some .live) t)) ∧
       (∀ t c n f, s.leaseOf p = .stale t c n f → exec (.whois src a) s = .next (answer (some .stale) t)) ∧
       ((∀ t c d, s.leaseOf p ≠ .live t c d) → (∀ t c n f, s.leaseOf p ≠ .stale t c n f) →
         exec (.whois src a) s = .next (answer (some (s.leaseOf p).state) 0)))

/-! ### Bus engine -/

/-- The choice of a current message: none where there is one already; the head of the queue; with the queue empty, the
notice of the lowest entry that has one, an EVICT before a PROBE, marked as taken in the same event; otherwise none (R93,
R114, R115). -/
def Obligations.ChoiceOfTheCurrentMessage : Prop :=
  ∀ s : State, s.power = .running → s.bus.engine ≠ .fault →
    (s.bus.current ≠ none → exec .currentMessageChoice s = .next s) ∧
    (s.bus.current = none →
      (s.bus.queue ≠ [] →
        exec .currentMessageChoice s = .next { s with bus := { s.bus with current := some ⟨.head, 0⟩ } }) ∧
      (s.bus.queue = [] →
        (∀ p : Pool, Noticed s p → (∀ q, q < p → ¬ Noticed s q) →
          (∀ t r, (s.entry p).evict = .waiting t r → exec .currentMessageChoice s = .next { s with
            lease := { s.lease with table := s.lease.table.set p { s.entry p with evict := .sending t r } }
            bus := { s.bus with current := some ⟨.notice (.evict p t r), 0⟩ } }) ∧
          (∀ t c n, (∀ u r, (s.entry p).evict ≠ .waiting u r) → s.leaseOf p = .stale t c n .due →
            exec .currentMessageChoice s = .next { s with
              lease := { s.lease with table := s.lease.table.set p { s.entry p with lease := .stale t c n .sending } }
              bus := { s.bus with current := some ⟨.notice (.probe p t), 0⟩ } })) ∧
        ((∀ p : Pool, ¬ Noticed s p) → exec .currentMessageChoice s = .next s)))

/-- A START of the part's own: only after the idle gap, with the current message, chosen in the same event where there is
none (R102, R104, R114). Losing arbitration at a bit sent as 1 makes the part a receiver that has seen the bits before it
and a 0, and counts no attempt (R105). -/
def Obligations.OwnStartAndArbitration : Prop :=
  ∀ s : State, s.power = .running →
    (s.bus.engine = .idle .gap →
      (∀ m, s.bus.currentMessage = some m → exec .ownStart s = .next (inEngine s (.sending m.bytes false))) ∧
      (∀ u m, s.bus.current = none → exec .currentMessageChoice s = .next u → u.bus.currentMessage = some m →
        exec .ownStart s = .next (inEngine u (.sending m.bytes false))) ∧
      (s.bus.current = none → exec .currentMessageChoice s = .next s → exec .ownStart s = .next s)) ∧
    (s.bus.engine ≠ .idle .gap → exec .ownStart s = .next s) ∧
    ∀ bytes bit, s.bus.engine = .sending bytes false →
      ((bitsOf bytes)[bit]? = some true → exec (.arbitrationLost bit) s =
        .next (inEngine s (.receiving (.listening ((bitsOf bytes).take bit ++ [false]))))) ∧
      ((bitsOf bytes)[bit]? ≠ some true → exec (.arbitrationLost bit) s = .next s)

/-- The end of an own transmission: an ACK is the completion; a NACK, or a break by another device's START or STOP, is one
attempt, and the eighth drops the message (R103, R116, R117). -/
def Obligations.OutcomeOfAnOwnTransmission : Prop :=
  ∀ (s : State) (bytes : List Byte) (c : Current) (m : Message),
    s.power = .running → s.bus.engine = .sending bytes false → s.bus.current = some c → s.bus.currentMessage = some m →
    exec .ownTransmissionAck s = .next (inEngine (ended s m true) (.sending bytes true)) ∧
    exec (.attempt .nack) s = .next (inEngine (attempted s c m) (.sending bytes true)) ∧
    exec (.attempt .brokenByStart) s = .next (inEngine (attempted s c m) (.receiving (.listening []))) ∧
    exec (.attempt .brokenByStop) s = .next (inEngine (attempted s c m) (.idle .stopped))

/-- Conditions on the bus move a transceiver that is not in FAULT: a START by another device, a STOP, and both lines high for
the idle gap (R103); while the bus counts as busy and in FAULT, START and STOP are not received (R101, R102, R119). A START
or STOP during an own transmission is the attempt that it breaks (R116). Readings of the model: a command whose condition
the state does not receive changes nothing, and so BUS_IDLE_GAP changes nothing in FAULT, whose exit is FAULT_EXIT, nor
while the part sends (log 2); and which commands end an own transmission, BUS_STOP for the part's own STOP after the slot
and a START or STOP by another before it as the break of ATTEMPT (log 18). -/
def Obligations.ConditionsOnTheBus : Prop :=
  ∀ s : State, s.power = .running →
    ((∃ q, q ≠ Quiet.settling ∧ s.bus.engine = .idle q) ∨ (∃ rx, s.bus.engine = .receiving rx) →
      exec .busStartByOther s = .next (inEngine s (.receiving (.listening [])))) ∧
    (s.bus.engine = .idle .gap ∨ (∃ rx, s.bus.engine = .receiving rx) ∨ (∃ bytes, s.bus.engine = .sending bytes true) →
      exec .busStop s = .next (inEngine s (.idle .stopped))) ∧
    (s.bus.engine = .idle .settling ∨ s.bus.engine = .fault →
      exec .busStartByOther s = .next s ∧ exec .busStop s = .next s) ∧
    (∀ bytes, s.bus.engine = .sending bytes false →
      exec .busStartByOther s = exec (.attempt .brokenByStart) s ∧ exec .busStop s = exec (.attempt .brokenByStop) s) ∧
    ((∃ q, s.bus.engine = .idle q) ∨ (∃ rx, s.bus.engine = .receiving rx) →
      exec .busIdleGap s = .next (inEngine s (.idle .gap))) ∧
    ((∃ bytes b, s.bus.engine = .sending bytes b) ∨ s.bus.engine = .fault → exec .busIdleGap s = .next s) ∧
    ((∃ seen, s.bus.engine = .receiving (.listening seen)) ∨ s.bus.engine = .receiving .ignoring →
      exec (.brokenTransaction .start) s = .next (inEngine s (.receiving (.listening []))) ∧
      exec (.brokenTransaction .stop) s = .next (inEngine s (.idle .stopped)) ∧
      exec (.brokenTransaction .idleGap) s = .next (inEngine s (.idle .gap)))

/-- A line low beyond the limit: FAULT and BUSFAULT, and one attempt for a transmission that had not reached its slot; in
FAULT the watch is stopped. Leaving FAULT leads to IDLE with the bus still busy (R102, R118, R119). That the watch then
starts with no low time counted is the model's reading (log 23). -/
def Obligations.StuckBusAndFaultExit : Prop :=
  ∀ s : State, s.power = .running → WatchLaw s →
    ((∃ q, s.bus.engine = .idle q) ∨ (∃ rx, s.bus.engine = .receiving rx) ∨ (∃ bytes, s.bus.engine = .sending bytes true) →
      exec .stuckBus s = .next (flagged (inFault s) { s.att.latched with busFault := true })) ∧
    (∀ bytes c m, s.bus.engine = .sending bytes false → s.bus.current = some c → s.bus.currentMessage = some m →
      exec .stuckBus s = .next (flagged (inFault (attempted s c m)) { s.att.latched with busFault := true })) ∧
    (s.bus.engine = .fault →
      exec .stuckBus s = .next s ∧
      exec .faultExit s = .next { s with bus := { s.bus with engine := .idle .settling, watch := .started 0 } }) ∧
    (s.bus.engine ≠ .fault → exec .faultExit s = .next s)

/-- What reads as a request: kind, length, source and tags as the table of 5.5 asks, with the payload fields in their places
(R107 conditions 2 to 5, R198). A complete good transaction to the part is accepted exactly where it reads as a request,
the lease engine is ready, and, but for RELEASE, a place is neither occupied nor reserved; then it is acknowledged and
dispatched, and otherwise it has no effect but the rival indication of source 0x01 (R107, R108, R111). -/
def Obligations.RequestKindsAndAcceptance : Prop :=
  (∀ (src kind : Byte) (payload : List Byte) (r : Request),
     requestOf src kind payload = some r ↔
       (∃ t c h, kind = 0x11 ∧ payload = tagBytes t ++ [c, h] ∧ src = 0x0F ∧ validTag t = true ∧ r = .join t c h) ∨
       (∃ t a, kind = 0x12 ∧ payload = tagBytes t ++ [a] ∧ src = 0x0F ∧ validTag t = true ∧ r = .claim t a) ∨
       (∃ t c p, kind = 0x13 ∧ payload = tagBytes t ++ [c] ∧ src = poolByte p ∧ validTag t = true ∧ r = .renew t c) ∨
       (∃ t p, kind = 0x14 ∧ payload = tagBytes t ∧ src = poolByte p ∧ validTag t = true ∧ r = .release t) ∨
       (∃ t, kind = 0x15 ∧ payload = tagBytes t ∧ 2 ≤ src.toNat ∧ src.toNat < 128 ∧ validTag t = true ∧ r = .resolve t) ∨
       (∃ a, kind = 0x16 ∧ payload = [a] ∧ 2 ≤ src.toNat ∧ src.toNat < 128 ∧ r = .whois a)) ∧
  (∀ (s : State) (src kind : Byte) (payload : List Byte) (seen : List Bool),
     s.power = .running → s.bus.engine = .receiving (.listening seen) → payload.length ≤ 12 →
     let bytes := withCheck ([0x01, src, kind, byteOf payload.length] ++ payload)
     seen.isPrefixOf (bitsOf bytes) = true →
     (∀ r, requestOf src kind payload = some r → s.lease.ready = true →
       (∃ t, r = .release t) ∨ s.bus.queue.length + s.bus.reserved < 8 →
       exec (.transactionReceived bytes) s = .next { s with bus := { s.bus with
         reports := s.bus.reports ++ [.request src r], engine := .receiving (.slotPassed true) } }) ∧
     (requestOf src kind payload = none ∨ s.lease.ready = false ∨
         (8 ≤ s.bus.queue.length + s.bus.reserved ∧ ∀ t, requestOf src kind payload ≠ some (.release t)) →
       exec (.transactionReceived bytes) s = .next (inEngine
         (if src = 0x01 then flagged s { s.att.latched with rival := true } else s) (.receiving (.slotPassed false)))))

/-- A good transaction to another address gives a snoop report of a pool source and nothing else, but for RIVAL where the
source is 0x01; one with a bad check byte or a length above 12 gives nothing at all (R101, R110, R111). -/
def Obligations.ForeignTraffic : Prop :=
  ∀ (s : State) (dest src kind : Byte) (payload : List Byte) (seen : List Bool),
    s.power = .running → s.bus.engine = .receiving (.listening seen) →
    let head : List Byte := [dest, src, kind, byteOf payload.length]
    (dest ≠ 0x01 → payload.length ≤ 12 → seen.isPrefixOf (bitsOf (withCheck (head ++ payload))) = true →
      (∀ p, src = poolByte p → exec (.transactionReceived (withCheck (head ++ payload))) s = .next { s with bus := { s.bus with
        reports := s.bus.reports ++ [.snoop p], engine := .receiving (.slotPassed false) } }) ∧
      ((∀ p, src ≠ poolByte p) → exec (.transactionReceived (withCheck (head ++ payload))) s = .next (inEngine
        (if src = 0x01 then flagged s { s.att.latched with rival := true } else s) (.receiving (.slotPassed false))))) ∧
    (∀ check, payload.length ≤ 12 → check ≠ crc8 (head ++ payload) →
      seen.isPrefixOf (bitsOf (head ++ payload ++ [check])) = true →
      exec (.transactionReceived (head ++ payload ++ [check])) s = .next (inEngine s (.receiving (.slotPassed false)))) ∧
    ∀ n : Byte, 12 < n.toNat → seen.isPrefixOf (bitsOf [dest, src, kind, n]) = true →
      exec (.transactionReceived [dest, src, kind, n]) s = .next (inEngine s (.receiving .ignoring))

/-- The check byte: a list followed by a byte runs the register to 0x00 exactly if that byte is its check byte, and every
reply ends in the right one (R197). The bytes of every message that the part builds: destination, source 0x01, kind, length,
payload and check (R120, R199). What a Restart puts on the bus for the rest of a transmission that had not been sent whole is
never good: past the length byte and before the check byte has begun, the payload is filled up and the complement of the
right check byte and a slot follow; otherwise the part stops short of the check byte or in it (R122). Those bytes, kept in a
field, are the ones sent where the part does not withdraw, and that no byte is finished where none is in progress is the
model's choice (log 20). -/
def Obligations.CheckByteDetectsAndRestartCutIsNeverGood : Prop :=
  (∀ (bs : List Byte) (b : Byte), crc8 (bs ++ [b]) = 0 ↔ b = crc8 bs) ∧
  (∀ (t : Tag) (p : Pool) (d a : Byte) (c : ClassId) (m : Half),
     (Message.offer t p c m).bytes = withCheck ([0x0F, 0x01, 0x21, 10] ++ tagBytes t ++ [poolByte p, byteOf c.val] ++ halfBytes m) ∧
     (Message.grant p t c m).bytes = withCheck ([poolByte p, 0x01, 0x22, 9] ++ tagBytes t ++ [byteOf c.val] ++ halfBytes m) ∧
     (Message.refuse d t .poolEmpty).bytes = withCheck ([d, 0x01, 0x23, 7] ++ tagBytes t ++ [1]) ∧
     (Message.refuse d t .offersFull).bytes = withCheck ([d, 0x01, 0x23, 7] ++ tagBytes t ++ [2]) ∧
     (Message.refuse d t .badClass).bytes = withCheck ([d, 0x01, 0x23, 7] ++ tagBytes t ++ [3]) ∧
     (Message.refuse d t .noOffer).bytes = withCheck ([d, 0x01, 0x23, 7] ++ tagBytes t ++ [4]) ∧
     (Message.refuse d t .noLease).bytes = withCheck ([d, 0x01, 0x23, 7] ++ tagBytes t ++ [5]) ∧
     (Message.refuse d t .revoked).bytes = withCheck ([d, 0x01, 0x23, 7] ++ tagBytes t ++ [6]) ∧
     (Message.probe p t).bytes = withCheck ([poolByte p, 0x01, 0x24, 6] ++ tagBytes t) ∧
     (Message.evict p t .admin).bytes = withCheck ([poolByte p, 0x01, 0x25, 7] ++ tagBytes t ++ [1]) ∧
     (Message.evict p t .pinned).bytes = withCheck ([poolByte p, 0x01, 0x25, 7] ++ tagBytes t ++ [2]) ∧
     (Message.evict p t .moved).bytes = withCheck ([poolByte p, 0x01, 0x25, 7] ++ tagBytes t ++ [3]) ∧
     (Message.answerResolve d t .live a).bytes = withCheck ([d, 0x01, 0x26, 8] ++ tagBytes t ++ [2, a]) ∧
     (Message.answerResolve d t .stale a).bytes = withCheck ([d, 0x01, 0x26, 8] ++ tagBytes t ++ [3, a]) ∧
     (Message.answerResolve d t .boundAbsent a).bytes = withCheck ([d, 0x01, 0x26, 8] ++ tagBytes t ++ [8, a]) ∧
     (Message.answerResolve d t .unknown a).bytes = withCheck ([d, 0x01, 0x26, 8] ++ tagBytes t ++ [9, a]) ∧
     ∀ (k : Summary) (code : Byte), (k, code) ∈ ([(some .free, 0), (some .offered, 1), (some .live, 2), (some .stale, 3),
         (some .quarantine, 4), (some .reserved, 5), (some .withheld, 6), (none, 7)] : List (Summary × Byte)) →
       (Message.answerWhois d a k t).bytes = withCheck ([d, 0x01, 0x26, 8, a, code] ++ tagBytes t)) ∧
  (∀ r : Reply, crc8 r.bytes = 0) ∧
  (∀ (m : Message) (sent : Nat) (outbid : Bool), 8 * m.bytes.length > sent →
     let cut := cutOf m.bytes sent outbid
     (cut.slot = true ↔ 32 ≤ sent ∧ sent ≤ 8 * (m.bytes.length - 1)) ∧
     (cut.slot = true → cut.bytes.length = m.bytes.length ∧ crc8 cut.bytes ≠ 0 ∧
       ∃ body, cut.bytes = body ++ [~~~ crc8 body]) ∧
     (cut.slot = false → cut.bytes.length = (sent + 7) / 8 ∧
       (cut.bytes.length < m.bytes.length ∨ cut.bytes.length = m.bytes.length ∧
         cut.bytes.take (m.bytes.length - 1) = m.bytes.take (m.bytes.length - 1))) ∧
     cut.bytes.take (sent / 8) = m.bytes.take (sent / 8))

/-! ### Host port -/

/-- A frame begins: its mode by the level of HSCK, and its content for the whole frame by the buffer as it stands; in reset
only the level of the pin is seen (R150, R151, R154). HSDO is driven from the fall of HSEL_N, and is high impedance while
HSEL_N is high, in reset and in a frame that was not taken up (R150, R151, R161). The bytes on HSDO: a reply's status, echo,
length, data and check, and 0xFF after them; the filler 0xFF, 0xFF, 0x00 and its check; 0xFF where nothing is owed (R153). A
frame that did not deliver what it was owed leaves the buffer as it is and its request without trace, whatever its bytes; so
does a frame that was not taken up (R151, R154, R155). -/
def Obligations.FrameBeginsAndUndeliveredFrameIsDiscarded : Prop :=
  (∀ (s : State) (hsck : Bool), s.port.hselLow = false →
     (s.power = .running → exec (.hselNFall hsck) s = .next { s with port := { s.port with
       hselLow := true
       frame := some ⟨if hsck then .mode3 else .mode0, match s.port.buffer with
         | .empty => .idleFill
         | .pending _ _ => .filler
         | .ready r => .reply r⟩ } }) ∧
     (s.power ≠ .running → exec (.hselNFall hsck) s = .next { s with port := { s.port with hselLow := true } }) ∧
     (∀ i, s.hsdo i = none) ∧
     ∀ t, s.power = .running → exec (.hselNFall hsck) s = .next t → t.hsdoDriven = true ∧ ∀ i, t.hsdo i =
       some (hsdoByte (match s.port.buffer with
         | .empty => .idleFill
         | .pending _ _ => .filler
         | .ready r => .reply r) i)) ∧
  (∀ s : State, (s.hsdoDriven = true ↔ s.power = .running ∧ s.port.hselLow = true ∧ s.port.frame ≠ none) ∧
     (∀ i, s.hsdo i = none ↔ s.hsdoDriven = false) ∧
     ∀ spd cut t u, exec (.hardReset spd cut) s = .next t → exec .hardResetEnd t = .next u →
       t.hsdoDriven = false ∧ u.hsdoDriven = false) ∧
  (∀ (s : State) (bytes : List Byte) (edges : Fin 8),
     (s.port.frame = none ∨
       (∃ m, s.port.frame = some ⟨m, .filler⟩) ∨
       ∃ m r, s.port.frame = some ⟨m, .reply r⟩ ∧ bytes.length < r.data.length + 4) →
     exec (.hselNRise bytes edges) s = .next { s with port := { s.port with hselLow := false, frame := none } }) ∧
  (∀ (r : Reply) (i : Nat),
     hsdoByte (.reply r) 0 = r.status.code ∧ hsdoByte (.reply r) 1 = r.echo ∧ hsdoByte (.reply r) 2 = byteOf r.data.length ∧
     (∀ d, r.data[i]? = some d → hsdoByte (.reply r) (i + 3) = d) ∧
     hsdoByte (.reply r) (r.data.length + 3) = crc8 ([r.status.code, r.echo, byteOf r.data.length] ++ r.data) ∧
     hsdoByte (.reply r) (r.data.length + 4 + i) = 0xFF ∧
     hsdoByte .filler i = [0xFF, 0xFF, 0x00, crc8 [0xFF, 0xFF, 0x00]].getD i 0xFF ∧ hsdoByte .idleFill i = 0xFF)

/-- A frame that delivered what it was owed has its request judged by the checks in order: the frame errors, the check
error and the unknown code, each with PORT; the starting gate; and otherwise the request is handed to its owner (R154,
R156, R157, R159). -/
def Obligations.DeliveredFrameIsJudged : Prop :=
  ∀ (s : State) (f : Frame) (bytes : List Byte) (edges : Fin 8),
    s.port.frame = some f →
    (f.out = .idleFill ∨ ∃ r, f.out = .reply r ∧ r.data.length + 4 ≤ bytes.length) →
    let holding (b : Buffer) : State := { s with port := ⟨false, none, b⟩ }
    let error (k : ReplyStatus) (echo : Byte) : State :=
      flagged (holding (.ready ⟨k, echo, []⟩)) { s.att.latched with port := true }
    (bytes = [] → exec (.hselNRise bytes edges) s = .next (error .frameError 0x00)) ∧
    (∀ code, bytes = [code] → exec (.hselNRise bytes edges) s = .next (error .frameError code)) ∧
    ∀ code len rest, bytes = code :: len :: rest →
      (20 < len.toNat → exec (.hselNRise bytes edges) s = .next (error .frameError code)) ∧
      (len.toNat ≤ 20 →
        (bytes.length < len.toNat + 3 ∨ edges ≠ 0 → exec (.hselNRise bytes edges) s = .next (error .frameError code)) ∧
        ∀ params check padding, rest = params ++ check :: padding → params.length = len.toNat → edges = 0 →
          (check ≠ crc8 (code :: len :: params) → exec (.hselNRise bytes edges) s = .next (error .checkError code)) ∧
          (check = crc8 (code :: len :: params) →
            ((∀ c : RequestCode, c.byte ≠ code) → exec (.hselNRise bytes edges) s = .next (error .unknown code)) ∧
            ∀ c : RequestCode, c.byte = code →
              (s.lease.ready = true ∨ c = .nop ∨ c = .ident ∨ c = .status →
                exec (.hselNRise bytes edges) s = .next (holding (.pending c params))) ∧
              (s.lease.ready = false → c ≠ .nop → c ≠ .ident → c ≠ .status →
                exec (.hselNRise bytes edges) s = .next (holding (.ready ⟨.starting, code, []⟩)))))

/-! ### Host requests -/

/-- A request whose parameter length is not that of its code is answered BAD_PARAM and has no effect; and no request that
is answered with a status other than OK changes anything but the buffer (R163). -/
def Obligations.RefusedRequestChangesNothing : Prop :=
  ∀ (c : Instr) (s : State) (code : RequestCode) (ps : List Byte), hostRequest c = some (code, ps) → Asked s code ps →
    (ps.length ≠ paramLength code → exec c s = .next (replied s .badParam code [])) ∧
    ∀ t r, exec c s = .next t → t.port.buffer = .ready r → r.status ≠ .ok → t = replied s r.status code r.data

/-- NOP has no effect and is answered OK with no data; Ident is answered OK with its seven fixed bytes; a frame that carries
either delivers the reply that is owed, whole, and its request passes the gate before the lease engine is ready (R164,
R165). -/
def Obligations.NopAndIdent : Prop :=
  (∀ s : State,
     (Asked s .nop [] → exec (.nop []) s = .next (replied s .ok .nop [])) ∧
     ∀ m out padding, s.power = .running → s.port.frame = some ⟨m, out⟩ →
       (out = .idleFill ∨ ∃ r, out = .reply r ∧ r.data.length + 4 ≤ padding.length + 3) →
       ∃ t, exec (.hselNRise ([0x00, 0x00, 0xD7] ++ padding) 0) s = .next t ∧
         t = { s with port := ⟨false, none, .pending .nop []⟩ } ∧ exec (.nop []) t = .next (replied t .ok .nop [])) ∧
  (∀ s : State,
     (Asked s .ident [] → exec (.ident []) s = .next (replied s .ok .ident [0x41, 0x12, 0x01, 112, 8, 32, 8])) ∧
     ∀ m out padding, s.power = .running → s.port.frame = some ⟨m, out⟩ →
       (out = .idleFill ∨ ∃ r, out = .reply r ∧ r.data.length + 4 ≤ padding.length + 3) →
       ∃ t, exec (.hselNRise (withCheck [0x01, 0x00] ++ padding) 0) s = .next t ∧
         t = { s with port := ⟨false, none, .pending .ident []⟩ } ∧
         exec (.ident []) t = .next (replied t .ok .ident [0x41, 0x12, 0x01, 112, 8, 32, 8]))

/-- Status is one reading of four blocks in 24 bytes and changes nothing; the seven counts add up to 112, and those of FREE
and OFFERED are the length of the free list and the number of occupied slots; the codes of the store state, the bus engine
state and the last result, with its tag, are those of 10.5; before the lease engine is ready the fixed reading stands in
their place (R166, R167). -/
def Obligations.StatusIsOneReading : Prop :=
  ∀ s : State, Asked s .status [] → TableLaws s → GateLaw s → ∃ d, exec (.status []) s = .next (replied s .ok .status d) ∧
    d.length = 24 ∧ d[0]? = some s.causeFlags ∧ d[1]? = some s.att.enables ∧
    ((d.drop 2).take 7 |>.map (·.toNat)).sum = 112 ∧
    (s.lease.ready = true →
      (d.drop 2).take 7 = [byteOf (s.count .free), byteOf (s.count .offered), byteOf (s.count .live), byteOf (s.count .stale),
        byteOf (s.count .quarantine), byteOf (s.count .reserved), byteOf (s.count .withheld)] ∧
      d[2]? = some (byteOf s.lease.freeList.length) ∧
      d[3]? = some (byteOf ((List.finRange 8).countP fun k => (s.lease.slots[k]).isSome)) ∧
      d[10]? = some (byteOf s.store.erasedCount) ∧ d[11]? = some (byteOf s.store.bindingCount) ∧
      (d.drop 12).take 4 = beBytes 4 s.lease.clock.toNat) ∧
    (s.lease.ready = false → (d.drop 2).take 7 = [112, 0, 0, 0, 0, 0, 0] ∧ (d.drop 10).take 6 = [0, 0, 0, 0, 0, 0] ∧
      (d.drop 17).take 7 = [0, 0, 0, 0, 0, 0, 0]) ∧
    d[9]? = some (byteOf (64 * (match s.store.mode with
        | .scanning _ => 0
        | .ready => 1
        | .rewriting _ => 2
        | .degraded => 3) +
      32 * (if s.lease.ready = true ∧ s.lease.window ≠ none then 1 else 0) + 8 * (match s.bus.engine with
        | .idle _ => 0
        | .receiving _ => 1
        | .sending _ _ => 2
        | .fault => 3))) ∧
    (s.lease.ready = true → (d.drop 17).take 7 = match s.store.last with
      | .none => [0, 0, 0, 0, 0, 0, 0]
      | .scan .clean => [0x44, 0, 0, 0, 0, 0, 0]
      | .scan .recovered => [0x45, 0, 0, 0, 0, 0, 0]
      | .scan .inconsistent => [0x46, 0, 0, 0, 0, 0, 0]
      | .bind t .done => 0x81 :: tagBytes t
      | .bind t .doneNoSpare => 0x82 :: tagBytes t
      | .bind t .failed => 0x83 :: tagBytes t
      | .unbind t .done => 0xC1 :: tagBytes t
      | .unbind t .doneNoSpare => 0xC2 :: tagBytes t
      | .unbind t .failed => 0xC3 :: tagBytes t) ∧
    d[16]? = some (byteOf s.bus.queue.length)

/-- Acknowledge clears the latched flags that its mask names and no other, leaves CHANGE, and returns the flags as they then
stand; Enable writes the eight enables and no flag (R168, R169, R190). CHANGE is set exactly while some change mark is set;
ATN_N is low exactly in a running part with some cause flag and its enable both set (R187, R189). -/
def Obligations.AcknowledgeEnableAndAttention : Prop :=
  (∀ (s : State) (b : Byte),
     (Asked s .acknowledge [b] → ∃ t, exec (.acknowledge [b]) s = .next t ∧
       t = replied { s with att := t.att } .ok .acknowledge [t.causeFlags] ∧ t.att.enables = s.att.enables ∧
       ∀ i : Fin 8, t.causeFlags.getLsbD i = (s.causeFlags.getLsbD i && (!b.getLsbD i || i == 1))) ∧
     (Asked s .enable [b] → exec (.enable [b]) s =
       .next (replied { s with att := { s.att with enables := b } } .ok .enable [s.causeFlags, b]))) ∧
  (∀ s : State,
     (s.causeFlags.getLsbD 1 = true ↔ ∃ p : Pool, (s.entry p).mark = true) ∧
     (s.causeFlags.getLsbD 0 = s.att.latched.start ∧ s.causeFlags.getLsbD 2 = s.att.latched.conflict ∧
       s.causeFlags.getLsbD 3 = s.att.latched.exhaust ∧ s.causeFlags.getLsbD 4 = s.att.latched.busFault ∧
       s.causeFlags.getLsbD 5 = s.att.latched.rival ∧ s.causeFlags.getLsbD 6 = s.att.latched.store ∧
       s.causeFlags.getLsbD 7 = s.att.latched.port) ∧
     (s.atnLow = true ↔
       s.power = .running ∧ ∃ i : Fin 8, s.causeFlags.getLsbD i = true ∧ s.att.enables.getLsbD i = true))

/-- The lease record, field by field (R171, 10.5). Lookup Address returns the record as it stands, and with the clear option
sets the conflict count to 0 and no mark; Lookup Tag answers from the lease table, then from the shadow, and otherwise
NOT_FOUND; neither changes anything else (R170, R172). -/
def Obligations.LeaseRecordAndLookups : Prop :=
  (∀ (s : State) (p : Pool),
     let d := s.leaseRecord p
     let e := s.entry p
     d.length = 16 ∧ d[0]? = some (poolByte p) ∧ d[1]? = some e.lease.state.code ∧
     (∃ flags : Byte, d[2]? = some flags ∧ flags.getLsbD 0 = s.store.pinned p ∧ flags.getLsbD 1 = e.mark ∧
       flags.getLsbD 2 = e.lease.holder.isSome ∧ flags.getLsbD 3 = e.lease.last.isSome ∧
       flags.getLsbD 4 = e.lease.probeDue ∧ flags.getLsbD 5 = e.evict.isSet ∧ flags.getLsbD 6 = false ∧
       flags.getLsbD 7 = false) ∧
     d[3]? = some (match e.lease.cls with
       | some c => byteOf c.val
       | none => 0) ∧
     (d.drop 4).take 6 = tagBytes (match e.lease.holder with
       | some t => t
       | none => e.lease.last.getD 0) ∧
     (d.drop 10).take 4 = timeBytes (e.lease.deadline.getD 0) ∧ d[14]? = some e.conflicts ∧
     d[15]? = some (match e.lease with
       | .offered _ _ k => byteOf k.val
       | .stale _ _ n _ => byteOf n.val
       | _ => 0)) ∧
  (∀ s : State,
     (∀ p, Asked s .lookupAddress [poolByte p, 0x00] →
       exec (.lookupAddress [poolByte p, 0x00]) s = .next (replied s .ok .lookupAddress (s.leaseRecord p))) ∧
     (∀ p, Asked s .lookupAddress [poolByte p, 0x01] → exec (.lookupAddressClear [poolByte p, 0x01]) s =
       .next (replied { s with lease := { s.lease with table := s.lease.table.set p { s.entry p with conflicts := 0 } } }
         .ok .lookupAddress (s.leaseRecord p))) ∧
     (∀ a b, (∀ p, a ≠ poolByte p) ∨ (b ≠ 0x00 ∧ b ≠ 0x01) → Asked s .lookupAddress [a, b] →
       (b ≠ 0x01 → exec (.lookupAddress [a, b]) s = .next (replied s .badParam .lookupAddress [])) ∧
       (b ≠ 0x00 → exec (.lookupAddressClear [a, b]) s = .next (replied s .badParam .lookupAddress []))) ∧
     ∀ t, Asked s .lookupTag (tagBytes t) → OneHolderLaw s → ShadowLaw s.store →
       (validTag t = false → exec (.lookupTag (tagBytes t)) s = .next (replied s .badParam .lookupTag [])) ∧
       (validTag t = true →
         (∀ p, (s.leaseOf p).holder = some t →
           (∀ (k : BindSlot) (b : Binding), s.store.shadow[k] = some b → b.tag = t → exec (.lookupTag (tagBytes t)) s =
             .next (replied s .ok .lookupTag ([0x01] ++ s.leaseRecord p ++ [byteOf k.val]))) ∧
           (Unbound s t → exec (.lookupTag (tagBytes t)) s =
             .next (replied s .ok .lookupTag ([0x01] ++ s.leaseRecord p ++ [0xFF])))) ∧
         (HoldsNothing s t →
           (∀ (k : BindSlot) (b : Binding), s.store.shadow[k] = some b → b.tag = t → exec (.lookupTag (tagBytes t)) s =
             .next (replied s .ok .lookupTag ([0x02] ++ s.store.bindingRecord k ++ [(s.leaseOf b.addr).state.code]))) ∧
           (Unbound s t → exec (.lookupTag (tagBytes t)) s = .next (replied s .notFound .lookupTag [])))))

/-- Scan returns the lowest marked addresses in ascending order, at most eight, with their states, says MORE exactly if
more than eight were marked, and clears the marks of those it returns and of no other (R173, R193, R194). -/
def Obligations.ScanReturnsAndClearsMarks : Prop :=
  ∀ s : State, Asked s .scan [] → ∃ (t : State) (chosen : List Pool) (d : List Byte), exec (.scan []) s = .next t ∧
    t = replied { s with lease := { s.lease with table := t.lease.table } } .ok .scan d ∧
    chosen.Pairwise (· < ·) ∧ chosen.length = min 8 ((List.finRange 112).countP fun p => (s.entry p).mark) ∧
    (∀ p : Pool, p ∈ chosen → (s.entry p).mark = true) ∧
    (∀ p q : Pool, p ∈ chosen → (s.entry q).mark = true → q < p → q ∈ chosen) ∧
    d = byteOf (chosen.length + (if 8 < (List.finRange 112).countP (fun p => (s.entry p).mark) then 128 else 0)) ::
      chosen.flatMap (fun p => [poolByte p, (s.leaseOf p).state.code]) ∧
    ∀ p : Pool, t.entry p = { s.entry p with mark := (s.entry p).mark && !chosen.contains p }

/-- Free List returns up to sixteen addresses from a position on, in list order, and changes nothing; a position above 111
is BAD_PARAM (R174). -/
def Obligations.FreeListRead : Prop :=
  ∀ (s : State) (start : Byte), Asked s .freeList [start] →
    (111 < start.toNat → exec (.freeList [start]) s = .next (replied s .badParam .freeList [])) ∧
    (start.toNat ≤ 111 → ∃ (m : Nat) (addresses : List Byte),
      exec (.freeList [start]) s =
        .next (replied s .ok .freeList ([byteOf s.lease.freeList.length, start, byteOf m] ++ addresses)) ∧
      m = min 16 (s.lease.freeList.length - start.toNat) ∧ addresses.length = m ∧
      ∀ i, i < m → addresses[i]? = (s.lease.freeList[start.toNat + i]?).map poolByte)

/-- Revoke: a held address is withdrawn with an EVICT(ADMIN) waiting; an offer is cancelled with a REFUSE(REVOKED) if a
place is free; a quarantine ends with FREE at the tail; otherwise REFUSED(NOTHING); an address outside the pool is BAD_PARAM
(R89, R90, R91, R175). -/
def Obligations.RevokeOfAnAddress : Prop :=
  (∀ (s : State) (a : Byte), Asked s .revoke [a] → (∀ p, a ≠ poolByte p) →
    exec (.revoke [a]) s = .next (replied s .badParam .revoke [])) ∧
  ∀ (s : State) (p : Pool), Asked s .revoke [poolByte p] →
    let noticed (t : Tag) : State :=
      { s with lease := { s.lease with table := s.lease.table.set p { s.entry p with evict := .waiting t .admin } } }
    (∀ t c d, s.leaseOf p = .live t c d → ∃ u, exec (.revoke [poolByte p]) s = .next (replied u .ok .revoke []) ∧
      Withdrawn (noticed t) p t s.lease.slots u) ∧
    (∀ t c n f, s.leaseOf p = .stale t c n f → ∃ u, exec (.revoke [poolByte p]) s = .next (replied u .ok .revoke []) ∧
      Withdrawn (noticed t) p t s.lease.slots u) ∧
    (∀ t c k, s.leaseOf p = .offered t c k → ∃ u,
      exec (.revoke [poolByte p]) s = .next (replied (revoked u t) .ok .revoke []) ∧
      Withdrawn s p t (s.lease.slots.set k none) u) ∧
    (∀ t d, s.leaseOf p = .quarantine t d → s.store.pinned p = false → exec (.revoke [poolByte p]) s =
      .next (replied (moved s p (.free (some t)) (s.lease.freeList ++ [p]) s.lease.slots) .ok .revoke [])) ∧
    ((∃ l, s.leaseOf p = .free l) ∨ s.leaseOf p = .reserved ∨ s.leaseOf p = .withheld →
      exec (.revoke [poolByte p]) s = .next (replied s .refused .revoke [0x06]))

/-- Withhold on and off by the state of the address; the pinned test comes before the held test; an address outside the pool
and an option other than 0x00 and 0x01 are BAD_PARAM (R21, R22, R176). -/
def Obligations.WithholdOnAndOff : Prop :=
  (∀ (s : State) (a o : Byte), Asked s .withhold [a, o] → (∀ p, a ≠ poolByte p) ∨ (o ≠ 0x00 ∧ o ≠ 0x01) →
    (o ≠ 0x00 → exec (.withholdOn [a, o]) s = .next (replied s .badParam .withhold [])) ∧
    (o ≠ 0x01 → exec (.withholdOff [a, o]) s = .next (replied s .badParam .withhold []))) ∧
  ∀ (s : State) (p : Pool),
    (Asked s .withhold [poolByte p, 0x01] →
      let run := exec (.withholdOn [poolByte p, 0x01]) s
      (s.store.pinned p = true ∨ s.leaseOf p = .reserved → run = .next (replied s .refused .withhold [0x02])) ∧
      (s.store.pinned p = false →
        (∀ l, s.leaseOf p = .free l →
          run = .next (replied (moved s p .withheld (s.lease.freeList.erase p) s.lease.slots) .ok .withhold [])) ∧
        (∀ t d, s.leaseOf p = .quarantine t d →
          run = .next (replied (moved s p .withheld s.lease.freeList s.lease.slots) .ok .withhold [])) ∧
        (s.leaseOf p = .withheld → run = .next (replied s .ok .withhold [])) ∧
        ((s.leaseOf p).holder ≠ none → run = .next (replied s .refused .withhold [0x01])))) ∧
    (Asked s .withhold [poolByte p, 0x00] →
      let run := exec (.withholdOff [poolByte p, 0x00]) s
      (s.leaseOf p = .withheld → s.store.pinned p = false →
        run = .next (replied (moved s p (.free none) (s.lease.freeList ++ [p]) s.lease.slots) .ok .withhold [])) ∧
      (s.leaseOf p ≠ .withheld → run = .next (replied s .refused .withhold [0x06])))

/-- Class Set writes the three settings of one class if all are in range, and otherwise nothing. Timing Set writes all four
items if every one is in range, and acts on an open window: closed by a value at or below lease time now, moved by a
larger one; a closed window stays closed; out of range it writes nothing. Timing Get returns the same nine bytes (R52, R88,
R177, R179, R180). -/
def Obligations.ClassSetAndTimingSetAndTimingGet : Prop :=
  (∀ (s : State) (c hi lo n o : Byte), Asked s .classSet [c, hi, lo, n, o] →
     (∀ k : ClassId, ∀ probes : Fin 4, c.toNat = k.val → 10 ≤ hi.toNat * 256 + lo.toNat → n.toNat = probes.val →
       (o = 0 ∨ o = 1) → exec (.classSet [c, hi, lo, n, o]) s =
         .next (replied { s with lease := { s.lease with
           classes := s.lease.classes.set k ⟨BitVec.ofNat 16 (hi.toNat * 256 + lo.toNat), probes, o == 1⟩ } }
           .ok .classSet [c, hi, lo, n, o])) ∧
     (4 ≤ c.toNat ∨ hi.toNat * 256 + lo.toNat < 10 ∨ 4 ≤ n.toNat ∨ 2 ≤ o.toNat →
       exec (.classSet [c, hi, lo, n, o]) s = .next (replied s .badParam .classSet []))) ∧
  (∀ (s : State) (offer probe quarantine window : Half),
     let params := halfBytes offer ++ halfBytes probe ++ halfBytes quarantine ++ halfBytes window
     (Asked s .timingSet params →
       let wrote (w : Option LeaseTime) : State :=
         { s with lease := { s.lease with timing := ⟨offer, probe, quarantine, window⟩, window := w } }
       let good := 50 ≤ offer.toNat ∧ offer.toNat ≤ 2000 ∧ offer.toNat % 10 = 0 ∧
         100 ≤ probe.toNat ∧ probe.toNat ≤ 10000 ∧ probe.toNat % 100 = 0 ∧ quarantine.toNat ≤ 3600 ∧ window.toNat ≤ 3600
       (good → s.lease.window = none →
         exec (.timingSet params) s = .next (replied (wrote none) .ok .timingSet (params ++ [0]))) ∧
       (good → s.lease.window ≠ none → window.toNat ≤ s.lease.clock.toNat →
         exec (.timingSet params) s = .next (replied (wrote none) .ok .timingSet (params ++ [0]))) ∧
       (good → s.lease.window ≠ none → s.lease.clock.toNat < window.toNat → exec (.timingSet params) s =
         .next (replied (wrote (some (BitVec.ofNat 32 window.toNat))) .ok .timingSet (params ++ [1]))) ∧
       (¬ good → exec (.timingSet params) s = .next (replied s .badParam .timingSet []))) ∧
     (Asked s .timingGet [] → s.lease.timing = ⟨offer, probe, quarantine, window⟩ →
       exec (.timingGet []) s = .next (replied s .ok .timingGet (params ++ [if s.lease.window = none then 0 else 1]))))

/-- Class Get returns the five bytes of the class table as it stands, BAD_PARAM for a class above 3; after either reset it
returns the defaults (R178). -/
def Obligations.ClassGetReadsTheTable : Prop :=
  (∀ (s : State) (c : Byte), Asked s .classGet [c] →
    (4 ≤ c.toNat → exec (.classGet [c]) s = .next (replied s .badParam .classGet [])) ∧
    ∀ k : ClassId, c.toNat = k.val → exec (.classGet [c]) s = .next (replied s .ok .classGet
      ([c] ++ beBytes 2 (s.lease.classes[k]).term.toNat ++
        [byteOf (s.lease.classes[k]).probes.val, if (s.lease.classes[k]).snoop then 1 else 0]))) ∧
  ∀ (s t : State), (∃ ps sent outbid, Asked s .restart [] ∧ ps = [] ∧ exec (.restart ps sent outbid) s = .next t) ∨
      (s.power = .running ∧ (∃ i x r, s.store.mode = .scanning ⟨.repairing [] r, i, x⟩) ∧ exec .scanEnd s = .next t) →
    t.classRecord 0 = [0, 2, 88, 2, 1] ∧ t.classRecord 1 = [1, 0, 60, 1, 1] ∧ t.classRecord 2 = [2, 14, 16, 2, 0] ∧
      t.classRecord 3 = [3, 255, 255, 3, 0]

/-- Restart, as one event: the table built anew from the shadow with a pending change in it, defaults, the outbound queue
and what goes with it discarded, the bit rate kept, the stuck-bus watch started anew, the flags cleared but START, the
enables START alone; the store is untouched, the buffer holds the Restart's own reply, and a transmission in progress is cut
(R16, R122, R144, R162, R184, R192). That the cut is kept in a field is the model's choice (log 20). -/
def Obligations.RestartRebuilds : Prop :=
  ∀ (s : State) (sent : Nat) (outbid : Bool), Asked s .restart [] → ∃ t, exec (.restart [] sent outbid) s = .next t ∧
    t.pending = s.pending ∧ t.power = s.power ∧ t.store = s.store ∧
    t.port = { s.port with buffer := .ready ⟨.ok, 0x7E, []⟩ } ∧
    t.att = ⟨⟨true, false, false, false, false, false, false⟩, 0x01⟩ ∧
    t.bus.engine = .idle .settling ∧ t.bus.watch = .started 0 ∧ t.bus.fast = s.bus.fast ∧ t.bus.queue = [] ∧ t.bus.current = none ∧
    t.bus.reserved = 0 ∧ (∀ src r, .request src r ∉ t.bus.reports) ∧
    (∀ bytes, s.bus.engine = .sending bytes false → t.bus.lastCut = some (cutOf bytes sent outbid)) ∧
    (∀ bytes, s.bus.engine = .sending bytes true → t.bus.lastCut = some (cutOf bytes (8 * bytes.length) outbid)) ∧
    t.lease.ready = true ∧ t.lease.clock = 0 ∧ t.lease.window = some 120 ∧
    t.lease.classes = #v[⟨600, 2, true⟩, ⟨60, 1, true⟩, ⟨3600, 2, false⟩, ⟨65535, 3, false⟩] ∧
    t.lease.timing = ⟨300, 2000, 30, 120⟩ ∧ (∀ k : SlotId, t.lease.slots[k] = none) ∧
    (∀ p : Pool, t.entry p = ⟨if s.store.pinned p then .reserved else .free none, .absent, 0, false⟩) ∧
    t.lease.freeList = (List.finRange 112).filter fun p => !s.store.pinned p

/-! ### Binding store -/

/-- An accepted Bind, as one event: the pending change and the rewrite with its target and sequence number, the binding in
the shadow, the early effect on the address and on any other holding of the tag, a notice or a REFUSE(REVOKED) for each
tag that loses an address, the one for the address first, and OK with the slot (R124, R131, R132, R133, R138 step 1,
R181). That the target leaves the erased set in the event of acceptance is the model's reading (log 13). -/
def Obligations.BindAccepted : Prop :=
  ∀ (s : State) (t : Tag) (a : Pool) (c : ClassId) (force : Bool) (k : BindSlot) (target : SectorId),
    let params := tagBytes t ++ [poolByte a, byteOf c.val, if force then 1 else 0]
    Asked s .bind params → TableLaws s → BindingLaws s → GateLaw s → validTag t = true → s.store.mode = .ready →
    s.store.bindSlot t = some k → s.store.outrun (logicalOf k) (s.store.nextSeq (logicalOf k)) = false →
    (∀ (j : BindSlot) (b : Binding), s.store.shadow[j] = some b → b.addr = a → b.tag = t) →
    s.leaseOf a ≠ .withheld → (∀ u, (s.leaseOf a).holder = some u → u ≠ t → force = true) →
    s.store.shadow[k] ≠ some ⟨t, a, c⟩ → s.store.lowestErased = some target →
    ∃ v, exec (.bind params) s = .next v ∧
      v.pending = s.pending ∧ v.power = s.power ∧ v.att = s.att ∧
      v.port = { s.port with buffer := .ready ⟨.ok, 0x40, [byteOf k.val, 0x01]⟩ } ∧
      v.store = { s.store with
        shadow := s.store.shadow.set k (some ⟨t, a, c⟩)
        erased := s.store.erased.set target false
        mode := .rewriting ⟨.bind k s.store.shadow[k] ⟨t, a, c⟩ (match s.store.shadow[k] with
          | some b => if b.addr = a then none else some b.addr
          | none => none), target, s.store.nextSeq (logicalOf k), .program⟩ } ∧
      (∀ u d e, u ≠ t → s.leaseOf a = .live u d e → v.leaseOf a = .reserved ∧ (v.entry a).evict = .waiting u .pinned) ∧
      (∀ u d n f, u ≠ t → s.leaseOf a = .stale u d n f →
        v.leaseOf a = .reserved ∧ (v.entry a).evict = .waiting u .pinned) ∧
      (∀ u d j, u ≠ t → s.leaseOf a = .offered u d j →
        v.leaseOf a = .reserved ∧ (v.entry a).evict = (s.entry a).evict ∧ v.lease.slots[j] = none) ∧
      ((s.leaseOf a).holder = some t → v.leaseOf a = s.leaseOf a ∧ (v.entry a).evict = (s.entry a).evict) ∧
      ((s.leaseOf a).holder = none → v.leaseOf a = .reserved ∧ (v.entry a).evict = (s.entry a).evict) ∧
      v.lease.freeList = (if (s.leaseOf a).isFree then s.lease.freeList.erase a else s.lease.freeList) ++
        (if s.lease.timing.quarantine = 0 then
          (List.finRange 112).filter fun b => b != a && (s.leaseOf b).holder == some t && !s.store.pinned b
        else []) ∧
      (∀ b, b ≠ a → (s.leaseOf b).holder = some t →
        (s.store.pinned b = true → v.leaseOf b = .reserved) ∧
        (s.store.pinned b = false → v.leaseOf b = if s.lease.timing.quarantine = 0 then .free (some t)
          else .quarantine t (s.nowPlus s.lease.timing.quarantine.toNat)) ∧
        (v.entry b).mark = true ∧
        (v.entry b).evict = if (s.leaseOf b).state = .offered then (s.entry b).evict else .waiting t .moved) ∧
      (∀ b, b ≠ a → (s.leaseOf b).holder ≠ some t → v.entry b = s.entry b) ∧
      ((v.entry a).mark = true ∨ v.entry a = s.entry a ∧ s.store.pinned a = true) ∧
      (∀ b, (v.entry b).conflicts = (s.entry b).conflicts) ∧
      let first := match s.leaseOf a with
        | .offered u _ _ => if u = t then s else revoked s u
        | _ => s
      v.bus = ((List.finRange 112).foldl (fun w b => match s.leaseOf b with
        | .offered u _ _ => if b ≠ a ∧ u = t then revoked w t else w
        | _ => w) first).bus

/-- The checks of a Bind in their order, each with its reply; a refused Bind, and one that finds its binding already there,
change nothing but the buffer (R130, R142, R181). -/
def Obligations.BindRefusedOrUnchanged : Prop :=
  ∀ (s : State) (t : Tag) (a c f : Byte),
    let params := tagBytes t ++ [a, c, f]
    Asked s .bind params → ShadowLaw s.store →
    let run := exec (.bind params) s
    (validTag t = false ∨ (∀ p, a ≠ poolByte p) ∨ 4 ≤ c.toNat ∨ 2 ≤ f.toNat →
      run = .next (replied s .badParam .bind [])) ∧
    ∀ (p : Pool) (k : ClassId), validTag t = true → a = poolByte p → c = byteOf k.val → f.toNat < 2 →
      ((∃ r, s.store.mode = .rewriting r) → run = .next (replied s .busy .bind [])) ∧
      (s.store.mode = .degraded → run = .next (replied s .refused .bind [0x05])) ∧
      (s.store.mode = .ready →
        (∀ j, s.store.bindSlot t = some j → s.store.outrun (logicalOf j) (s.store.nextSeq (logicalOf j)) = true →
          run = .next (replied s .refused .bind [0x05])) ∧
        ((∀ j, s.store.bindSlot t = some j → s.store.outrun (logicalOf j) (s.store.nextSeq (logicalOf j)) = false) →
          ((∃ (j : BindSlot) (b : Binding), s.store.shadow[j] = some b ∧ b.addr = p ∧ b.tag ≠ t) →
            run = .next (replied s .refused .bind [0x02])) ∧
          ((∀ (j : BindSlot) (b : Binding), s.store.shadow[j] = some b → b.addr = p → b.tag = t) →
            (s.leaseOf p = .withheld → run = .next (replied s .refused .bind [0x03])) ∧
            (s.leaseOf p ≠ .withheld →
              (Unbound s t → (∀ j : BindSlot, s.store.shadow[j] ≠ none) →
                run = .next (replied s .refused .bind [0x04])) ∧
              (∀ j u, s.store.bindSlot t = some j → (s.leaseOf p).holder = some u → u ≠ t → f = 0 →
                run = .next (replied s .refused .bind [0x01])) ∧
              ∀ j : BindSlot, s.store.shadow[j] = some ⟨t, p, k⟩ →
                (∀ u, (s.leaseOf p).holder = some u → u = t ∨ f = 1) →
                run = .next (replied s .ok .bind [byteOf j.val, 0x00])))))

/-- Unbind: the checks in their order, and acceptance, which begins a rewrite and leaves the shadow and the lease table as
they are; Binding Read returns the record of a slot with its state (R136, R182, R183). That the target leaves the erased set
in the event of acceptance is the model's reading (log 13). -/
def Obligations.UnbindAndBindingRead : Prop :=
  ∀ s : State,
    (∀ t, Asked s .unbind (tagBytes t) → ShadowLaw s.store →
      let run := exec (.unbind (tagBytes t)) s
      (validTag t = false → run = .next (replied s .badParam .unbind [])) ∧
      (validTag t = true →
        ((∃ r, s.store.mode = .rewriting r) → run = .next (replied s .busy .unbind [])) ∧
        (s.store.mode = .degraded → run = .next (replied s .refused .unbind [0x05])) ∧
        (s.store.mode = .ready →
          (Unbound s t → run = .next (replied s .notFound .unbind [])) ∧
          ∀ (k : BindSlot) (b : Binding), s.store.shadow[k] = some b → b.tag = t →
            (s.store.outrun (logicalOf k) (s.store.nextSeq (logicalOf k)) = true →
              run = .next (replied s .refused .unbind [0x05])) ∧
            ∀ target, s.store.outrun (logicalOf k) (s.store.nextSeq (logicalOf k)) = false →
              s.store.lowestErased = some target →
              run = .next (replied { s with store := { s.store with
                erased := s.store.erased.set target false
                mode := .rewriting ⟨.unbind k b, target, s.store.nextSeq (logicalOf k), .program⟩ } }
                .ok .unbind [byteOf k.val])))) ∧
    ∀ n : Byte, Asked s .bindingRead [n] →
      (31 < n.toNat → exec (.bindingRead [n]) s = .next (replied s .badParam .bindingRead [])) ∧
      ∀ k : BindSlot, n.toNat = k.val → ∃ state : Byte,
        exec (.bindingRead [n]) s = .next (replied s .ok .bindingRead (match s.store.shadow[k] with
          | some b => [n, state] ++ tagBytes b.tag ++ [poolByte b.addr, byteOf b.cls.val]
          | none => [n, state, 0, 0, 0, 0, 0, 0, 0, 0])) ∧
        ((∀ r, s.store.mode = .rewriting r → r.change.slot ≠ k) →
          state = if (s.store.shadow[k]).isSome then 0x01 else 0x00) ∧
        (∀ r x y z, s.store.mode = .rewriting r → r.change = .bind k x y z → state = 0x02) ∧
        ∀ r x, s.store.mode = .rewriting r → r.change = .unbind k x → state = 0x03

/-- The steps of a rewrite short of its outcome: a good image goes on to its mark, a wrong image or a mark that does not read
as programmed to the erase of the target, a good mark to the erase of the old image, and a failed first erase to one more;
only the flash and the step change (R138, R139, R140). That the old image still reads as valid after its first failed erase
is the model's reading (log 10). -/
def Obligations.StepsOfARewrite : Prop :=
  ∀ (s : State) (r : Rewrite), s.power = .running → s.store.mode = .rewriting r →
    let goes (flash : Vector Sector 5) (step : RewriteStep) : State :=
      { s with store := { s.store with flash := flash, mode := .rewriting { r with step := step } } }
    (∀ reads : Sector, r.step = .program →
      let found : Sector := { reads with mark := false }
      let image := programmed r.logical r.seq false (imageSlots (s.store.shadow.set r.change.slot r.change.after) r.logical)
      exec (.imageProgram reads) s =
        .next (goes (s.store.flash.set r.target found) (if found = image then .mark else .eraseTarget))) ∧
    (r.step = .mark → exec (.validMark false) s = .next (goes s.store.flash .eraseTarget)) ∧
    (r.step = .mark → s.store.current[r.logical] ≠ none → exec (.validMark true) s =
      .next (goes (s.store.flash.set r.target { s.store.flash[r.target] with mark := true }) (.eraseOld false))) ∧
    ∀ (reads : Sector) (k : SectorId) (q : Half), r.step = .eraseOld false → s.store.current[r.logical] = some (k, q) →
      reads ≠ blankSector → validImage (s.store.flash[k]) = some (r.logical, q) →
      ∃ left, exec (.supersededErase reads) s = .next (goes (s.store.flash.set k left) (.eraseOld true)) ∧
        validImage left = some (r.logical, q)

/-- The outcome of a rewrite, as one event: what has become of the sectors, the late effect or the rollback in the shadow,
the store state by the erased count, the last result, STORE, and the address that ceases to be pinned, which goes from
RESERVED to FREE at the tail or stays held, and is marked (R14, R134, R135, R137 to R141). -/
def Obligations.OutcomeOfARewrite : Prop :=
  ∀ (s : State) (r : Rewrite), s.power = .running → s.store.mode = .rewriting r → BindingLaws s →
    let goodFlash := s.store.flash.set r.target { s.store.flash[r.target] with mark := true }
    let stands := s.store.current.set r.logical (some (r.target, r.seq))
    let record (o : RewriteOutcome) : LastResult := match r.change with
      | .bind _ _ b _ => .bind b.tag o
      | .unbind _ b => .unbind b.tag o
    let Ends (command : Instr) (success : Bool) (flash : Vector Sector 5) (current : Vector (Option (SectorId × Half)) 4)
        (erased bad : Vector Bool 5) (o : RewriteOutcome) : Prop :=
      ∃ t, exec command s = .next t ∧
        t.pending = s.pending ∧ t.power = s.power ∧ t.port = s.port ∧ t.bus = s.bus ∧
        t.att = { s.att with latched := { s.att.latched with store := true } } ∧
        t.store = { s.store with
          flash := flash, current := current, erased := erased, bad := bad
          shadow := match r.change, success with
            | .bind _ _ _ _, true => s.store.shadow
            | .bind k before _ _, false => s.store.shadow.set k before
            | .unbind k _, true => s.store.shadow.set k none
            | .unbind _ _, false => s.store.shadow
          mode := if 0 < (List.finRange 5).countP (fun k => erased[k]) then .ready else .degraded
          last := record o } ∧
        (∀ p, s.store.pinned p = true → t.store.pinned p = false →
          t.entry p = { s.entry p with
            lease := if s.leaseOf p = .reserved then .free none else s.leaseOf p
            mark := true }) ∧
        (∀ p, (s.store.pinned p = true → t.store.pinned p = true) → t.entry p = s.entry p) ∧
        t.lease.freeList = s.lease.freeList ++ (List.finRange 112).filter (fun p =>
          s.store.pinned p && !t.store.pinned p && decide (s.leaseOf p = .reserved)) ∧
        t.lease.slots = s.lease.slots ∧ t.lease.clock = s.lease.clock ∧ t.lease.window = s.lease.window
    (r.step = .mark → s.store.current[r.logical] = none →
      Ends (.validMark true) true goodFlash stands s.store.erased s.store.bad .done) ∧
    (r.step = .eraseTarget → Ends (.targetErase blankSector) false (s.store.flash.set r.target blankSector) s.store.current
      (s.store.erased.set r.target true) s.store.bad .failed) ∧
    (∀ reads, r.step = .eraseTarget → reads ≠ blankSector → ∃ left, Ends (.targetErase reads) false
      (s.store.flash.set r.target left) s.store.current s.store.erased (s.store.bad.set r.target true) .failed) ∧
    (∀ retry (k : SectorId) (q : Half), r.step = .eraseOld retry → s.store.current[r.logical] = some (k, q) →
      Ends (.supersededErase blankSector) true (s.store.flash.set k blankSector) stands (s.store.erased.set k true)
        s.store.bad .done) ∧
    ∀ reads (k : SectorId) (q : Half), r.step = .eraseOld true → s.store.current[r.logical] = some (k, q) →
      reads ≠ blankSector → ∃ left, Ends (.supersededErase reads) true (s.store.flash.set k left) stands s.store.erased
        (s.store.bad.set k true) (if s.store.erasedCount = 0 then .doneNoSpare else .done)

/-- A hard reset at any point of a rewrite, or a loss of supply and the hard reset of the power-on after it. The scan finds
the target and the superseded sector as the table of R145 says for each step: in step 2 the target erased or partial; in
step 3 partial, or valid once the mark reads programmed; in the erase of a failed target partial; in step 4 and its retry
valid, with the old sector valid or partial; and it erases a partial target. Where no bad sector still reads as an image, the
scan keeps, for the logical sector written, the old image whole or the new image whole, erasing the superseded sector where
the new one stands, and for every other the image that was current (R145). It rests on the limits that the model sets to what
a cut operation leaves (log 10). -/
def Obligations.CutRewriteLeavesOldOrNewImage : Prop :=
  ∀ (s t u : State) (r : Rewrite) (spd : Bool) (cut : FlashCut),
    s.store.mode = .rewriting r → StoreLaws s → ChangeLaw s.store →
    (exec (.hardReset spd cut) s = .next t ∨
      ∃ v cut', exec (.powerLoss cut') s = .next v ∧ exec (.hardReset spd cut) v = .next t) →
    exec .hardResetEnd t = .next u →
    let target := t.store.flash[r.target]
    let isNew := validImage target = some (r.logical, r.seq)
    (r.step = .program → classify target = .erased ∨ classify target = .partially) ∧
    (r.step = .mark → classify target = .partially ∨ isNew) ∧
    (r.step = .eraseTarget → classify target = .partially) ∧
    (∀ retry, r.step = .eraseOld retry → isNew) ∧
    (∀ (k : SectorId) (q : Half), s.store.current[r.logical] = some (k, q) →
      newer r.seq q = true ∧
      (validImage (t.store.flash[k]) = some (r.logical, q) ∨
        (∃ retry, r.step = .eraseOld retry) ∧ classify (t.store.flash[k]) = .partially)) ∧
    ∃ todo clash, u.store.mode = .scanning ⟨.erasing todo, clash, false⟩ ∧
      (classify target = .partially → r.target ∈ todo) ∧
      ((∀ k : SectorId, s.store.bad[k] = true → validImage (s.store.flash[k]) = none) →
        (∀ l : LogicalId, l ≠ r.logical →
          u.store.current[l] = s.store.current[l] ∧ Agrees u.store (shadowBefore s.store r) l) ∧
        (¬ isNew ∧ Agrees u.store (shadowBefore s.store r) r.logical ∨
          isNew ∧ u.store.current[r.logical] = some (r.target, r.seq) ∧
          (∀ (k : SectorId) (q : Half), s.store.current[r.logical] = some (k, q) → k ∈ todo) ∧
          Agrees u.store (s.store.shadow.set r.change.slot r.change.after) r.logical))

/-! ### Laws that every step keeps -/

/-- State.reset meets every law. What State.reset is rests on choices of the model: its erased flash (log 3), the levels of
its pins (log 4), and the moment at which it stands (log 25). -/
def Obligations.ResetMeetsTheLaws : Prop :=
  TableLaws State.reset ∧ DeadlineLaw State.reset ∧ BusLaws State.reset ∧ ReplyLaw State.reset ∧ GateLaw State.reset ∧ BindingLaws State.reset ∧
    StoreLaws State.reset

/-- Every step keeps the laws of the lease table: the free list holds exactly the FREE addresses, each once; OFFERED entries
and occupied slots are paired; no tag holds two entries (R3, R17, R34). And every step keeps it that no deadline and no
closing point lies behind the clock, so no lease outlives the second at which it expires (R5, R50, R87), while the clock is
below its limit by more than the longest term (R49; log 5). -/
def Obligations.TableLawsAreKept : Prop :=
  (∀ s t : State, TableLaws s → step s = .next t → TableLaws t) ∧
  ∀ s t : State, DeadlineLaw s → s.lease.clock.toNat + 65536 < 2 ^ 32 → step s = .next t → DeadlineLaw t

/-- Every step keeps the laws of the bus engine: messages and reservations within eight places, attempts below the limit,
nothing sent but the current message, and the watch stopped exactly in FAULT (R112, R114, R116, R118). -/
def Obligations.BusLawsAreKept : Prop :=
  ∀ s t : State, BusLaws s → step s = .next t → BusLaws t

/-- Every step keeps the bound and the form of the reply in the buffer, and frames to a running part with HSEL_N low (R150,
R151, R153, R163, R200); and keeps it that the lease engine is ready exactly when the scan is over, that the starting gate
holds, and that the lease engine stands at its reset values until it is ready (R15, R149, R157). That it shows those values
until then is the model's reading (log 25). -/
def Obligations.ReplyAndGateLawsAreKept : Prop :=
  (∀ s t : State, ReplyLaw s → step s = .next t → ReplyLaw t) ∧
  (∀ s t : State, GateLaw s → step s = .next t → GateLaw t)

/-- Every step keeps the laws that tie the lease table to the shadow: no tag and no address bound twice, and a bound address
RESERVED or held by its binding's tag (R12, R13, R123). -/
def Obligations.BindingLawsAreKept : Prop :=
  ∀ s t : State, TableLaws s → GateLaw s → BindingLaws s → step s = .next t → BindingLaws t

/-- Every step keeps the laws of the store: the sector map, an erased sector in READY and none in DEGRADED, and a shadow that
equals the current sectors (R125, R127, R128, R138). -/
def Obligations.StoreLawsAreKept : Prop :=
  ∀ s t : State, BindingLaws s → StoreLaws s → step s = .next t → StoreLaws t

/-! ### What commands leave alone -/

/-- Change marks: every change of an entry's state, of its holder or of its pinned flag sets the mark, and no command clears
one but Scan and the resets (R10, R11). A notice on an entry outlives every command but the outcome of its EVICT and the
resets, and the conflict count every command but a snoop report from the address, its clearing and the resets (R7, R8,
R95). -/
def Obligations.ChangesAreMarkedAndNoticesOutliveThem : Prop :=
  (∀ (c : Instr) (s t : State) (p : Pool), Serving s → GateLaw s → BindingLaws s → isReset c = false →
     (∀ ps, c ≠ .scan ps) → exec c s = .next t →
     ((s.entry p).mark = true → (t.entry p).mark = true) ∧
     ((t.leaseOf p).state ≠ (s.leaseOf p).state ∨ (t.leaseOf p).holder ≠ (s.leaseOf p).holder ∨
         t.store.pinned p ≠ s.store.pinned p → (t.entry p).mark = true)) ∧
  (∀ (c : Instr) (s t : State) (p : Pool), isReset c = false → exec c s = .next t →
     (c ≠ .evictOutcome p → (s.entry p).evict ≠ .absent → (t.entry p).evict ≠ .absent) ∧
     (c ≠ .snoopReport p → (∀ ps, c ≠ .lookupAddressClear ps) → (t.entry p).conflicts = (s.entry p).conflicts))

/-- Which commands may change the store, the port, the attention unit and the transceiver with its watch: all others leave
these as they are (1.3, R103, R118, R144, R163, R186). The clock, the window, the class table and the timing set change only
by the commands that write them and by the resets; the bit rate only by a hard reset; the flash only by the store's own
operations and by a cut (R49, R51, R53, R87, R97, R123). That the bit rate stays as it was at a loss of supply is the model's
choice (log 14). Nothing is said here of the lease table, the free list, the offer slots, or the bus engine's queue, current
message and reports. -/
def Obligations.BlocksAndSettingsChangeOnlyByTheirCommands : Prop :=
  (∀ (c : Instr) (s t : State), exec c s = .next t →
     (touchesStore c = false → t.store = s.store) ∧
     (touchesPort c = false → t.port = s.port) ∧
     (touchesAttention c = false → t.att = s.att) ∧
     (movesEngine c = false → t.bus.engine = s.bus.engine ∧ t.bus.watch = s.bus.watch)) ∧
  (∀ (c : Instr) (s t : State), exec c s = .next t →
     (isReset c = false →
       (c ≠ .leaseClockTick → t.lease.clock = s.lease.clock) ∧
       (c ≠ .adoptionWindowClose → c ≠ .leaseClockTick → (∀ ps, c ≠ .timingSet ps) → t.lease.window = s.lease.window) ∧
       ((∀ ps, c ≠ .classSet ps) → t.lease.classes = s.lease.classes) ∧
       ((∀ ps, c ≠ .timingSet ps) → t.lease.timing = s.lease.timing)) ∧
     ((∀ spd cut, c ≠ .hardReset spd cut) → t.bus.fast = s.bus.fast) ∧
     ((∀ ps, c = .bind ps ∨ c = .unbind ps → t.store.flash = s.store.flash) ∧
       (c = .scanEnd ∨ c = .hardResetEnd → t.store.flash = s.store.flash))
)
end

