-- ==== Sys2Proof/Laws/State.lean ====
section
/-! SUPPORT. What each update of the state leaves in each field, so that no proof unfolds one. -/

namespace Sys2Proof.Machine

/-! ### Updates of one block -/

@[simp] theorem State.withPending_pending (s : State) (q : List Instr) : (s.withPending q).pending = q := rfl
@[simp] theorem State.withPending_power (s : State) (q : List Instr) : (s.withPending q).power = s.power := rfl
@[simp] theorem State.withPending_lease (s : State) (q : List Instr) : (s.withPending q).lease = s.lease := rfl
@[simp] theorem State.withPending_bus (s : State) (q : List Instr) : (s.withPending q).bus = s.bus := rfl
@[simp] theorem State.withPending_store (s : State) (q : List Instr) : (s.withPending q).store = s.store := rfl
@[simp] theorem State.withPending_port (s : State) (q : List Instr) : (s.withPending q).port = s.port := rfl
@[simp] theorem State.withPending_att (s : State) (q : List Instr) : (s.withPending q).att = s.att := rfl

@[simp] theorem State.withPower_pending (s : State) (x : Power) : (s.withPower x).pending = s.pending := rfl
@[simp] theorem State.withPower_power (s : State) (x : Power) : (s.withPower x).power = x := rfl
@[simp] theorem State.withPower_lease (s : State) (x : Power) : (s.withPower x).lease = s.lease := rfl
@[simp] theorem State.withPower_bus (s : State) (x : Power) : (s.withPower x).bus = s.bus := rfl
@[simp] theorem State.withPower_store (s : State) (x : Power) : (s.withPower x).store = s.store := rfl
@[simp] theorem State.withPower_port (s : State) (x : Power) : (s.withPower x).port = s.port := rfl
@[simp] theorem State.withPower_att (s : State) (x : Power) : (s.withPower x).att = s.att := rfl

@[simp] theorem State.withLease_pending (s : State) (l : LeaseEngine) : (s.withLease l).pending = s.pending := rfl
@[simp] theorem State.withLease_power (s : State) (l : LeaseEngine) : (s.withLease l).power = s.power := rfl
@[simp] theorem State.withLease_lease (s : State) (l : LeaseEngine) : (s.withLease l).lease = l := rfl
@[simp] theorem State.withLease_bus (s : State) (l : LeaseEngine) : (s.withLease l).bus = s.bus := rfl
@[simp] theorem State.withLease_store (s : State) (l : LeaseEngine) : (s.withLease l).store = s.store := rfl
@[simp] theorem State.withLease_port (s : State) (l : LeaseEngine) : (s.withLease l).port = s.port := rfl
@[simp] theorem State.withLease_att (s : State) (l : LeaseEngine) : (s.withLease l).att = s.att := rfl

@[simp] theorem State.withBus_pending (s : State) (b : BusEngine) : (s.withBus b).pending = s.pending := rfl
@[simp] theorem State.withBus_power (s : State) (b : BusEngine) : (s.withBus b).power = s.power := rfl
@[simp] theorem State.withBus_lease (s : State) (b : BusEngine) : (s.withBus b).lease = s.lease := rfl
@[simp] theorem State.withBus_bus (s : State) (b : BusEngine) : (s.withBus b).bus = b := rfl
@[simp] theorem State.withBus_store (s : State) (b : BusEngine) : (s.withBus b).store = s.store := rfl
@[simp] theorem State.withBus_port (s : State) (b : BusEngine) : (s.withBus b).port = s.port := rfl
@[simp] theorem State.withBus_att (s : State) (b : BusEngine) : (s.withBus b).att = s.att := rfl

@[simp] theorem State.withStore_pending (s : State) (st : Store) : (s.withStore st).pending = s.pending := rfl
@[simp] theorem State.withStore_power (s : State) (st : Store) : (s.withStore st).power = s.power := rfl
@[simp] theorem State.withStore_lease (s : State) (st : Store) : (s.withStore st).lease = s.lease := rfl
@[simp] theorem State.withStore_bus (s : State) (st : Store) : (s.withStore st).bus = s.bus := rfl
@[simp] theorem State.withStore_store (s : State) (st : Store) : (s.withStore st).store = st := rfl
@[simp] theorem State.withStore_port (s : State) (st : Store) : (s.withStore st).port = s.port := rfl
@[simp] theorem State.withStore_att (s : State) (st : Store) : (s.withStore st).att = s.att := rfl

@[simp] theorem State.withPort_pending (s : State) (x : HostPort) : (s.withPort x).pending = s.pending := rfl
@[simp] theorem State.withPort_power (s : State) (x : HostPort) : (s.withPort x).power = s.power := rfl
@[simp] theorem State.withPort_lease (s : State) (x : HostPort) : (s.withPort x).lease = s.lease := rfl
@[simp] theorem State.withPort_bus (s : State) (x : HostPort) : (s.withPort x).bus = s.bus := rfl
@[simp] theorem State.withPort_store (s : State) (x : HostPort) : (s.withPort x).store = s.store := rfl
@[simp] theorem State.withPort_port (s : State) (x : HostPort) : (s.withPort x).port = x := rfl
@[simp] theorem State.withPort_att (s : State) (x : HostPort) : (s.withPort x).att = s.att := rfl

@[simp] theorem State.withAtt_pending (s : State) (a : Attention) : (s.withAtt a).pending = s.pending := rfl
@[simp] theorem State.withAtt_power (s : State) (a : Attention) : (s.withAtt a).power = s.power := rfl
@[simp] theorem State.withAtt_lease (s : State) (a : Attention) : (s.withAtt a).lease = s.lease := rfl
@[simp] theorem State.withAtt_bus (s : State) (a : Attention) : (s.withAtt a).bus = s.bus := rfl
@[simp] theorem State.withAtt_store (s : State) (a : Attention) : (s.withAtt a).store = s.store := rfl
@[simp] theorem State.withAtt_port (s : State) (a : Attention) : (s.withAtt a).port = s.port := rfl
@[simp] theorem State.withAtt_att (s : State) (a : Attention) : (s.withAtt a).att = a := rfl

/-! ### Updates of an entry, a slot, the queue, a flag and the buffer -/

@[simp] theorem State.setEntry_pending (s : State) (p : Pool) (e : Entry) : (s.setEntry p e).pending = s.pending := rfl
@[simp] theorem State.setEntry_power (s : State) (p : Pool) (e : Entry) : (s.setEntry p e).power = s.power := rfl
@[simp] theorem State.setEntry_bus (s : State) (p : Pool) (e : Entry) : (s.setEntry p e).bus = s.bus := rfl
@[simp] theorem State.setEntry_store (s : State) (p : Pool) (e : Entry) : (s.setEntry p e).store = s.store := rfl
@[simp] theorem State.setEntry_port (s : State) (p : Pool) (e : Entry) : (s.setEntry p e).port = s.port := rfl
@[simp] theorem State.setEntry_att (s : State) (p : Pool) (e : Entry) : (s.setEntry p e).att = s.att := rfl
@[simp] theorem State.setEntry_lease_ready (s : State) (p : Pool) (e : Entry) :
    (s.setEntry p e).lease.ready = s.lease.ready := rfl
@[simp] theorem State.setEntry_lease_table (s : State) (p : Pool) (e : Entry) :
    (s.setEntry p e).lease.table = s.lease.table.set p e := rfl
@[simp] theorem State.setEntry_lease_freeList (s : State) (p : Pool) (e : Entry) :
    (s.setEntry p e).lease.freeList = s.lease.freeList := rfl
@[simp] theorem State.setEntry_lease_slots (s : State) (p : Pool) (e : Entry) :
    (s.setEntry p e).lease.slots = s.lease.slots := rfl
@[simp] theorem State.setEntry_lease_classes (s : State) (p : Pool) (e : Entry) :
    (s.setEntry p e).lease.classes = s.lease.classes := rfl
@[simp] theorem State.setEntry_lease_timing (s : State) (p : Pool) (e : Entry) :
    (s.setEntry p e).lease.timing = s.lease.timing := rfl
@[simp] theorem State.setEntry_lease_clock (s : State) (p : Pool) (e : Entry) :
    (s.setEntry p e).lease.clock = s.lease.clock := rfl
@[simp] theorem State.setEntry_lease_window (s : State) (p : Pool) (e : Entry) :
    (s.setEntry p e).lease.window = s.lease.window := rfl

@[simp] theorem State.putSlot_pending (s : State) (k : SlotId) (o : Option OfferSlot) : (s.putSlot k o).pending = s.pending := rfl
@[simp] theorem State.putSlot_power (s : State) (k : SlotId) (o : Option OfferSlot) : (s.putSlot k o).power = s.power := rfl
@[simp] theorem State.putSlot_bus (s : State) (k : SlotId) (o : Option OfferSlot) : (s.putSlot k o).bus = s.bus := rfl
@[simp] theorem State.putSlot_store (s : State) (k : SlotId) (o : Option OfferSlot) : (s.putSlot k o).store = s.store := rfl
@[simp] theorem State.putSlot_port (s : State) (k : SlotId) (o : Option OfferSlot) : (s.putSlot k o).port = s.port := rfl
@[simp] theorem State.putSlot_att (s : State) (k : SlotId) (o : Option OfferSlot) : (s.putSlot k o).att = s.att := rfl
@[simp] theorem State.putSlot_lease_ready (s : State) (k : SlotId) (o : Option OfferSlot) :
    (s.putSlot k o).lease.ready = s.lease.ready := rfl
@[simp] theorem State.putSlot_lease_table (s : State) (k : SlotId) (o : Option OfferSlot) :
    (s.putSlot k o).lease.table = s.lease.table := rfl
@[simp] theorem State.putSlot_lease_freeList (s : State) (k : SlotId) (o : Option OfferSlot) :
    (s.putSlot k o).lease.freeList = s.lease.freeList := rfl
@[simp] theorem State.putSlot_lease_slots (s : State) (k : SlotId) (o : Option OfferSlot) :
    (s.putSlot k o).lease.slots = s.lease.slots.set k o := rfl
@[simp] theorem State.putSlot_lease_classes (s : State) (k : SlotId) (o : Option OfferSlot) :
    (s.putSlot k o).lease.classes = s.lease.classes := rfl
@[simp] theorem State.putSlot_lease_timing (s : State) (k : SlotId) (o : Option OfferSlot) :
    (s.putSlot k o).lease.timing = s.lease.timing := rfl
@[simp] theorem State.putSlot_lease_clock (s : State) (k : SlotId) (o : Option OfferSlot) :
    (s.putSlot k o).lease.clock = s.lease.clock := rfl
@[simp] theorem State.putSlot_lease_window (s : State) (k : SlotId) (o : Option OfferSlot) :
    (s.putSlot k o).lease.window = s.lease.window := rfl

@[simp] theorem State.changeLease_pending (s : State) (p : Pool) (l : Lease) (x : Place) : (s.changeLease p l x).pending = s.pending := rfl
@[simp] theorem State.changeLease_power (s : State) (p : Pool) (l : Lease) (x : Place) : (s.changeLease p l x).power = s.power := rfl
@[simp] theorem State.changeLease_bus (s : State) (p : Pool) (l : Lease) (x : Place) : (s.changeLease p l x).bus = s.bus := rfl
@[simp] theorem State.changeLease_store (s : State) (p : Pool) (l : Lease) (x : Place) : (s.changeLease p l x).store = s.store := rfl
@[simp] theorem State.changeLease_port (s : State) (p : Pool) (l : Lease) (x : Place) : (s.changeLease p l x).port = s.port := rfl
@[simp] theorem State.changeLease_att (s : State) (p : Pool) (l : Lease) (x : Place) : (s.changeLease p l x).att = s.att := rfl
@[simp] theorem State.changeLease_lease_ready (s : State) (p : Pool) (l : Lease) (x : Place) :
    (s.changeLease p l x).lease.ready = s.lease.ready := rfl
@[simp] theorem State.changeLease_lease_table (s : State) (p : Pool) (l : Lease) (x : Place) :
    (s.changeLease p l x).lease.table = s.lease.table.set p { s.entry p with lease := l, mark := true } := rfl
@[simp] theorem State.changeLease_lease_freeList (s : State) (p : Pool) (l : Lease) (x : Place) :
    (s.changeLease p l x).lease.freeList = moveInFreeList s.lease.freeList p (s.leaseOf p) l x := rfl
@[simp] theorem State.changeLease_lease_slots (s : State) (p : Pool) (l : Lease) (x : Place) :
    (s.changeLease p l x).lease.slots = emptiedSlots s.lease.slots (s.leaseOf p) := rfl
@[simp] theorem State.changeLease_lease_classes (s : State) (p : Pool) (l : Lease) (x : Place) :
    (s.changeLease p l x).lease.classes = s.lease.classes := rfl
@[simp] theorem State.changeLease_lease_timing (s : State) (p : Pool) (l : Lease) (x : Place) :
    (s.changeLease p l x).lease.timing = s.lease.timing := rfl
@[simp] theorem State.changeLease_lease_clock (s : State) (p : Pool) (l : Lease) (x : Place) :
    (s.changeLease p l x).lease.clock = s.lease.clock := rfl
@[simp] theorem State.changeLease_lease_window (s : State) (p : Pool) (l : Lease) (x : Place) :
    (s.changeLease p l x).lease.window = s.lease.window := rfl

@[simp] theorem State.enqueue_pending (s : State) (m : Message) : (s.enqueue m).pending = s.pending := rfl
@[simp] theorem State.enqueue_power (s : State) (m : Message) : (s.enqueue m).power = s.power := rfl
@[simp] theorem State.enqueue_lease (s : State) (m : Message) : (s.enqueue m).lease = s.lease := rfl
@[simp] theorem State.enqueue_store (s : State) (m : Message) : (s.enqueue m).store = s.store := rfl
@[simp] theorem State.enqueue_port (s : State) (m : Message) : (s.enqueue m).port = s.port := rfl
@[simp] theorem State.enqueue_att (s : State) (m : Message) : (s.enqueue m).att = s.att := rfl
@[simp] theorem State.enqueue_bus_engine (s : State) (m : Message) :
    (s.enqueue m).bus.engine = s.bus.engine := rfl
@[simp] theorem State.enqueue_bus_fast (s : State) (m : Message) :
    (s.enqueue m).bus.fast = s.bus.fast := rfl
@[simp] theorem State.enqueue_bus_queue (s : State) (m : Message) :
    (s.enqueue m).bus.queue = s.bus.queue ++ [m] := rfl
@[simp] theorem State.enqueue_bus_current (s : State) (m : Message) :
    (s.enqueue m).bus.current = s.bus.current := rfl
@[simp] theorem State.enqueue_bus_reports (s : State) (m : Message) :
    (s.enqueue m).bus.reports = s.bus.reports := rfl
@[simp] theorem State.enqueue_bus_watch (s : State) (m : Message) :
    (s.enqueue m).bus.watch = s.bus.watch := rfl
@[simp] theorem State.enqueue_bus_lastCut (s : State) (m : Message) :
    (s.enqueue m).bus.lastCut = s.bus.lastCut := rfl

@[simp] theorem State.report_pending (s : State) (r : Report) : (s.report r).pending = s.pending := rfl
@[simp] theorem State.report_power (s : State) (r : Report) : (s.report r).power = s.power := rfl
@[simp] theorem State.report_lease (s : State) (r : Report) : (s.report r).lease = s.lease := rfl
@[simp] theorem State.report_store (s : State) (r : Report) : (s.report r).store = s.store := rfl
@[simp] theorem State.report_port (s : State) (r : Report) : (s.report r).port = s.port := rfl
@[simp] theorem State.report_att (s : State) (r : Report) : (s.report r).att = s.att := rfl
@[simp] theorem State.report_bus_engine (s : State) (r : Report) :
    (s.report r).bus.engine = s.bus.engine := rfl
@[simp] theorem State.report_bus_fast (s : State) (r : Report) :
    (s.report r).bus.fast = s.bus.fast := rfl
@[simp] theorem State.report_bus_queue (s : State) (r : Report) :
    (s.report r).bus.queue = s.bus.queue := rfl
@[simp] theorem State.report_bus_current (s : State) (r : Report) :
    (s.report r).bus.current = s.bus.current := rfl
@[simp] theorem State.report_bus_reports (s : State) (r : Report) :
    (s.report r).bus.reports = s.bus.reports ++ [r] := rfl
@[simp] theorem State.report_bus_watch (s : State) (r : Report) :
    (s.report r).bus.watch = s.bus.watch := rfl
@[simp] theorem State.report_bus_lastCut (s : State) (r : Report) :
    (s.report r).bus.lastCut = s.bus.lastCut := rfl

@[simp] theorem State.setEngine_pending (s : State) (e : Engine) : (s.setEngine e).pending = s.pending := rfl
@[simp] theorem State.setEngine_power (s : State) (e : Engine) : (s.setEngine e).power = s.power := rfl
@[simp] theorem State.setEngine_lease (s : State) (e : Engine) : (s.setEngine e).lease = s.lease := rfl
@[simp] theorem State.setEngine_store (s : State) (e : Engine) : (s.setEngine e).store = s.store := rfl
@[simp] theorem State.setEngine_port (s : State) (e : Engine) : (s.setEngine e).port = s.port := rfl
@[simp] theorem State.setEngine_att (s : State) (e : Engine) : (s.setEngine e).att = s.att := rfl
@[simp] theorem State.setEngine_bus_engine (s : State) (e : Engine) :
    (s.setEngine e).bus.engine = e := rfl
@[simp] theorem State.setEngine_bus_fast (s : State) (e : Engine) :
    (s.setEngine e).bus.fast = s.bus.fast := rfl
@[simp] theorem State.setEngine_bus_queue (s : State) (e : Engine) :
    (s.setEngine e).bus.queue = s.bus.queue := rfl
@[simp] theorem State.setEngine_bus_current (s : State) (e : Engine) :
    (s.setEngine e).bus.current = s.bus.current := rfl
@[simp] theorem State.setEngine_bus_reports (s : State) (e : Engine) :
    (s.setEngine e).bus.reports = s.bus.reports := rfl
@[simp] theorem State.setEngine_bus_watch (s : State) (e : Engine) :
    (s.setEngine e).bus.watch = s.bus.watch := rfl
@[simp] theorem State.setEngine_bus_lastCut (s : State) (e : Engine) :
    (s.setEngine e).bus.lastCut = s.bus.lastCut := rfl

@[simp] theorem State.enterFault_pending (s : State) : s.enterFault.pending = s.pending := rfl
@[simp] theorem State.enterFault_power (s : State) : s.enterFault.power = s.power := rfl
@[simp] theorem State.enterFault_lease (s : State) : s.enterFault.lease = s.lease := rfl
@[simp] theorem State.enterFault_store (s : State) : s.enterFault.store = s.store := rfl
@[simp] theorem State.enterFault_port (s : State) : s.enterFault.port = s.port := rfl
@[simp] theorem State.enterFault_bus (s : State) :
    s.enterFault.bus = { s.bus with engine := .fault, watch := .stopped } := rfl
@[simp] theorem State.enterFault_att (s : State) :
    s.enterFault.att = { s.att with latched := { s.att.latched with busFault := true } } := rfl

@[simp] theorem State.raise_pending (s : State) (c : Cause) : (s.raise c).pending = s.pending := rfl
@[simp] theorem State.raise_power (s : State) (c : Cause) : (s.raise c).power = s.power := rfl
@[simp] theorem State.raise_lease (s : State) (c : Cause) : (s.raise c).lease = s.lease := rfl
@[simp] theorem State.raise_bus (s : State) (c : Cause) : (s.raise c).bus = s.bus := rfl
@[simp] theorem State.raise_store (s : State) (c : Cause) : (s.raise c).store = s.store := rfl
@[simp] theorem State.raise_port (s : State) (c : Cause) : (s.raise c).port = s.port := rfl
@[simp] theorem State.raise_att_latched (s : State) (c : Cause) :
    (s.raise c).att.latched = s.att.latched.set c := rfl
@[simp] theorem State.raise_att_enables (s : State) (c : Cause) :
    (s.raise c).att.enables = s.att.enables := rfl

@[simp] theorem State.putReply_pending (s : State) (r : Reply) : (s.putReply r).pending = s.pending := rfl
@[simp] theorem State.putReply_power (s : State) (r : Reply) : (s.putReply r).power = s.power := rfl
@[simp] theorem State.putReply_lease (s : State) (r : Reply) : (s.putReply r).lease = s.lease := rfl
@[simp] theorem State.putReply_bus (s : State) (r : Reply) : (s.putReply r).bus = s.bus := rfl
@[simp] theorem State.putReply_store (s : State) (r : Reply) : (s.putReply r).store = s.store := rfl
@[simp] theorem State.putReply_att (s : State) (r : Reply) : (s.putReply r).att = s.att := rfl
@[simp] theorem State.putReply_port_hselLow (s : State) (r : Reply) :
    (s.putReply r).port.hselLow = s.port.hselLow := rfl
@[simp] theorem State.putReply_port_frame (s : State) (r : Reply) :
    (s.putReply r).port.frame = s.port.frame := rfl
@[simp] theorem State.putReply_port_buffer (s : State) (r : Reply) :
    (s.putReply r).port.buffer = .ready r := rfl

@[simp] theorem State.countDown_pending (s : State) : s.countDown.pending = s.pending := by simp [State.countDown]
@[simp] theorem State.countDown_power (s : State) : s.countDown.power = s.power := by simp [State.countDown]
@[simp] theorem State.countDown_bus (s : State) : s.countDown.bus = s.bus := by simp [State.countDown]
@[simp] theorem State.countDown_store (s : State) : s.countDown.store = s.store := by simp [State.countDown]
@[simp] theorem State.countDown_port (s : State) : s.countDown.port = s.port := by simp [State.countDown]
@[simp] theorem State.countDown_att (s : State) : s.countDown.att = s.att := by simp [State.countDown]
@[simp] theorem State.countDown_lease_ready (s : State) : s.countDown.lease.ready = s.lease.ready := by simp [State.countDown]
@[simp] theorem State.countDown_lease_freeList (s : State) : s.countDown.lease.freeList = s.lease.freeList := by simp [State.countDown]
@[simp] theorem State.countDown_lease_classes (s : State) : s.countDown.lease.classes = s.lease.classes := by simp [State.countDown]
@[simp] theorem State.countDown_lease_timing (s : State) : s.countDown.lease.timing = s.lease.timing := by simp [State.countDown]
@[simp] theorem State.countDown_lease_clock (s : State) : s.countDown.lease.clock = s.lease.clock := by simp [State.countDown]
@[simp] theorem State.countDown_lease_window (s : State) : s.countDown.lease.window = s.lease.window := by simp [State.countDown]

/-! ### Entries after an update -/

@[simp] theorem State.entry_countDown (s : State) (p : Pool) :
    s.countDown.entry p = { s.entry p with lease := (s.leaseOf p).tick } := by
  simp [State.entry, State.countDown]

@[simp] theorem State.entry_setEntry_self (s : State) (p : Pool) (e : Entry) : (s.setEntry p e).entry p = e := by
  simp [State.entry]

@[simp] theorem State.entry_setEntry_ne (s : State) {p q : Pool} (e : Entry) (h : p ≠ q) :
    (s.setEntry p e).entry q = s.entry q := by
  simp [State.entry, Vector.getElem_set_ne, Fin.val_ne_of_ne h]

@[simp] theorem State.entry_changeLease_self (s : State) (p : Pool) (l : Lease) (x : Place) :
    (s.changeLease p l x).entry p = { s.entry p with lease := l, mark := true } := by
  simp [State.entry]

@[simp] theorem State.entry_changeLease_ne (s : State) {p q : Pool} (l : Lease) (x : Place) (h : p ≠ q) :
    (s.changeLease p l x).entry q = s.entry q := by
  simp [State.entry, Vector.getElem_set_ne, Fin.val_ne_of_ne h]

@[simp] theorem State.leaseOf_changeLease_self (s : State) (p : Pool) (l : Lease) (x : Place) :
    (s.changeLease p l x).leaseOf p = l := by
  simp [State.leaseOf]

@[simp] theorem State.leaseOf_changeLease_ne (s : State) {p q : Pool} (l : Lease) (x : Place) (h : p ≠ q) :
    (s.changeLease p l x).leaseOf q = s.leaseOf q := by
  simp [State.leaseOf, h]

end Sys2Proof.Machine
end

