-- ==== Sys2Proof/Laws/Ops.lean ====
section
/-! SUPPORT. One lemma for each shared operation, saying once all that it does, in the words of Safety.lean. -/

namespace Sys2Proof.Machine

open Sys2Proof.Safety

/-! ### When an event is taken -/

theorem whenRunning_running (f : State → State) {s : State} (h : s.power = .running) : whenRunning f s = .next (f s) := by
  simp [whenRunning, h]

theorem whenReady_serving (f : State → State) {s : State} (h : Serving s) : whenReady f s = .next (f s) := by
  obtain ⟨h1, h2⟩ := h
  simp [whenReady, h1, h2]

theorem whenReady_not_serving (f : State → State) {s : State} (h : ¬ Serving s) : whenReady f s = .next s := by
  unfold Serving at h
  simp [whenReady, h]

/-- A request event whose report is the oldest is taken on the state without the report. -/
theorem takeRequest_reported {r : Report} (f : State → State) {s : State} {rest : List Report} (h : Reported s r rest) :
    takeRequest r f s = .next (f (taken s rest)) := by
  obtain ⟨h1, h2⟩ := h
  simp [takeRequest, whenReady_serving _ h1, State.takeReport, h2, taken, State.withBus]

/-- A request event whose report is not the oldest does not occur. -/
theorem takeRequest_not_reported {r : Report} (f : State → State) {s : State} (h : s.bus.reports.head? ≠ some r) :
    takeRequest r f s = .next s := by
  have hn : s.takeReport (fun x => x == r) = none := by
    unfold State.takeReport
    cases hr : s.bus.reports with
    | nil => rfl
    | cons a l =>
      have ha : a ≠ r := by simpa [hr] using h
      simp [ha]
  simp [takeRequest, whenReady, hn]

/-- A report that is asked for is taken on the state without it. -/
theorem takeNews_reported {wanted : Report → Bool} {r : Report} (f : State → State) {s : State} {rest : List Report}
    (h : Reported s r rest) (hw : wanted r = true) : takeNews wanted f s = .next (f (taken s rest)) := by
  obtain ⟨⟨h1, h2⟩, h3⟩ := h
  simp [takeNews, whenRunning_running _ h1, State.takeReport, h3, hw, taken, State.withBus, h2]

/-- The owner takes a request that the port holds for it, and the reply is READY. -/
theorem serve_asked {code : RequestCode} {ps : List Byte} (own : State → Answer) {s : State} (h : Asked s code ps) :
    serve code ps own s = .next ((own s).state.putReply ⟨(own s).status, code.byte, (own s).data⟩) := by
  obtain ⟨h1, h2⟩ := h
  simp [serve, whenRunning_running _ h1, h2]

/-- A request that the port does not hold does not occur. -/
theorem serve_not_asked {code : RequestCode} {ps : List Byte} (own : State → Answer) {s : State}
    (h : s.port.buffer ≠ .pending code ps) : serve code ps own s = .next s := by
  simp [serve, whenRunning, h]

/-! ### Entries -/

theorem State.changeLease_eq_moved (s : State) (p : Pool) (l : Lease) (x : Place) :
    s.changeLease p l x =
      moved s p l (moveInFreeList s.lease.freeList p (s.leaseOf p) l x) (emptiedSlots s.lease.slots (s.leaseOf p)) := rfl

theorem State.setLease_eq_refreshed (s : State) (p : Pool) (l : Lease) : s.setLease p l = refreshed s p l := rfl

theorem State.enqueue_eq_queued (s : State) (m : Message) : s.enqueue m = queued s m := rfl

theorem State.refuseRevoked_eq_revoked (s : State) (t : Tag) : s.refuseRevoked t = revoked s t := by
  by_cases h : s.bus.queue.length + s.bus.reserved < 8 <;>
    simp [State.refuseRevoked, revoked, BusEngine.hasPlace, Config.outboundPlaces, Config.joinAddress, h, State.enqueue_eq_queued]

/-- Out of a held state into another one that is not FREE, the free list stands. -/
theorem moveInFreeList_held {fl : List Pool} {p : Pool} {old new : Lease} (x : Place) (h : old.isFree = false)
    (h' : new.isFree = false) : moveInFreeList fl p old new x = fl := by
  simp [moveInFreeList, h, h']

/-- Out of FREE the address leaves the free list from its place (R19). -/
theorem moveInFreeList_leave {fl : List Pool} {p : Pool} {old new : Lease} (x : Place) (h : old.isFree = true)
    (h' : new.isFree = false) : moveInFreeList fl p old new x = fl.erase p := by
  simp [moveInFreeList, h, h']

/-- Into FREE at the tail (R18). -/
theorem moveInFreeList_tail {fl : List Pool} {p : Pool} {old new : Lease} (h : old.isFree = false)
    (h' : new.isFree = true) : moveInFreeList fl p old new .tail = fl ++ [p] := by
  simp [moveInFreeList, h, h']

/-- Into FREE at the head (R18). -/
theorem moveInFreeList_head {fl : List Pool} {p : Pool} {old new : Lease} (h : old.isFree = false)
    (h' : new.isFree = true) : moveInFreeList fl p old new .head = p :: fl := by
  simp [moveInFreeList, h, h']

/-- Everything that a withdrawal does to an entry that is not FREE (R13, R71, R73). -/
theorem State.withdraw_spec (s : State) (p : Pool) (t : Tag) (h : (s.leaseOf p).isFree = false) :
    Withdrawn s p t (emptiedSlots s.lease.slots (s.leaseOf p)) (s.withdraw p t) := by
  refine ⟨fun hp => ?_, fun hp hq => ?_, fun hp hq => ?_⟩
  · rw [State.withdraw, if_pos hp, State.changeLease_eq_moved, moveInFreeList_held _ h rfl]
  · rw [State.withdraw, if_neg (by simp [hp]), if_pos hq, State.changeLease_eq_moved, moveInFreeList_tail h rfl]
  · rw [State.withdraw, if_neg (by simp [hp]), if_neg hq, State.changeLease_eq_moved, moveInFreeList_held _ h rfl]

/-- Everything that a transition into FREE does to an entry that is not FREE (R13, R18). -/
theorem State.toFree_spec (s : State) (p : Pool) (last : Option Tag) (x : Place) (h : (s.leaseOf p).isFree = false) :
    s.toFree p last x =
      if s.store.pinned p then moved s p .reserved s.lease.freeList (emptiedSlots s.lease.slots (s.leaseOf p))
      else moved s p (.free last) (match x with
        | .head => p :: s.lease.freeList
        | .tail => s.lease.freeList ++ [p]) (emptiedSlots s.lease.slots (s.leaseOf p)) := by
  unfold State.toFree
  split
  · rw [State.changeLease_eq_moved, moveInFreeList_held _ h rfl]
  · cases x
    · rw [State.changeLease_eq_moved, moveInFreeList_head h rfl]
    · rw [State.changeLease_eq_moved, moveInFreeList_tail h rfl]

/-- An entry that is still pinned is not touched by the end of one reason (R14). -/
theorem State.ceasePinned_pinned (s : State) (p : Pool) (h : s.store.pinned p = true) : s.ceasePinned p = s := by
  simp [State.ceasePinned, h]

/-! ### The end of a second and of a millisecond -/

/-- What every event of a second keeps, the end of the second keeps (R50, R87). -/
theorem State.endSecond_induction {P : State → Prop} (expire : ∀ s p, P s → P (s.expire p))
    (endQuarantine : ∀ s p, P s → P (s.endQuarantine p)) (closeWindow : ∀ s, P s → P s.closeWindow) {s : State} (h : P s) :
    P s.endSecond :=
  closeWindow _ (List.foldlRecOn pools _ h fun s h p _ => endQuarantine _ p (expire s p h))

/-- What every event of a protocol timer keeps, the end of the millisecond keeps (R5). -/
theorem State.endMillisecond_induction {P : State → Prop} (lapse : ∀ s p, P s → P (s.lapseRunOut p))
    (probe : ∀ s p, P s → P (s.probeRunOut p)) {s : State} (h : P s) : P s.endMillisecond :=
  List.foldlRecOn pools _ h fun s h p _ => probe _ p (lapse s p h)

/-- Everything that an expiry does: nothing, but in the second of the deadline, and then to STALE or away from the holder
(R50, R64). -/
theorem State.expire_spec (s : State) (p : Pool) :
    s.expire p = s ∨ ∃ t c, s.leaseOf p = .live t c s.lease.clock ∧
      ((s.lease.classes[c]).probes = 0 ∧ s.expire p = s.withdraw p t ∨
        (s.lease.classes[c]).probes ≠ 0 ∧
          s.expire p = moved s p (.stale t c (s.lease.classes[c]).probes .due) s.lease.freeList s.lease.slots) := by
  unfold State.expire
  split
  · rename_i t c d hl
    split
    · rename_i hd
      subst hd
      refine .inr ⟨t, c, hl, ?_⟩
      split
      · exact .inl ⟨‹_›, rfl⟩
      · refine .inr ⟨‹_›, ?_⟩
        rw [State.changeLease_eq_moved, hl]
        rfl
    · exact .inl rfl
  · exact .inl rfl

/-- Everything that the end of a quarantine does: nothing, but in the second of the deadline, and then FREE at the tail, or
RESERVED if pinned (R50, R72). -/
theorem State.endQuarantine_spec (s : State) (p : Pool) :
    s.endQuarantine p = s ∨ ∃ t, s.leaseOf p = .quarantine t s.lease.clock ∧
      s.endQuarantine p = s.toFree p (some t) .tail := by
  unfold State.endQuarantine
  split
  · rename_i t d hl
    split
    · rename_i hd
      subst hd
      exact .inr ⟨t, hl, rfl⟩
    · exact .inl rfl
  · exact .inl rfl

/-! ### Notices and cuts -/

/-- When an EVICT to an address is on its way: it is current, or its outcome is not yet taken (R94). -/
theorem BusEngine.evictOnItsWay_iff (b : BusEngine) (p : Pool) : b.evictOnItsWay p = true ↔
    (∃ n, ∃ u k, b.current = some ⟨.notice (.evict p u k), n⟩) ∨ ∃ u k a, .outcome (.evict p u k) a ∈ b.reports := by
  unfold BusEngine.evictOnItsWay
  rw [Bool.or_eq_true, List.any_eq_true, or_comm]
  apply or_congr
  · constructor
    · intro h
      split at h
      · rename_i q t r n hc
        rw [beq_iff_eq] at h
        exact ⟨n, t, r, h ▸ hc⟩
      · cases h
    · rintro ⟨n, u, k, h⟩
      simp [h]
  · constructor
    · rintro ⟨r, h1, h2⟩
      unfold Report.isEvictOutcome at h2
      split at h2
      · rename_i q t k a
        rw [beq_iff_eq] at h2
        exact ⟨t, k, a, h2 ▸ h1⟩
      · cases h2
    · rintro ⟨u, k, a, h⟩
      exact ⟨_, h, by simp [Report.isEvictOutcome]⟩

/-- A cut that fills up the payload has the length of the frame, begins with what had begun, and ends in the complement of
the right check byte, with a slot (R122). -/
theorem cutPayload_spec (frame begun : List Byte) (outbid : Bool) (h : begun.length < frame.length) :
    ∃ body, begun <+: body ∧ body.length + 1 = frame.length ∧
      cutPayload frame begun outbid = ⟨body ++ [~~~ crc8 body], true, outbid⟩ := by
  refine ⟨begun ++ List.replicate (frame.length - 1 - begun.length) 0xFF, List.prefix_append _ _, ?_, rfl⟩
  simp only [List.length_append, List.length_replicate]
  omega

/-! ### Searches of the table -/

/-- The tag's holding, where it has one and no other (R3). -/
theorem State.holding_of_holder {s : State} {p : Pool} {t : Tag} (h1 : OneHolderLaw s)
    (h : (s.leaseOf p).holder = some t) : s.holding t = some p := by
  unfold State.holding
  cases hf : pools.find? (fun q => (s.leaseOf q).holder == some t) with
  | none =>
    rw [List.find?_eq_none] at hf
    exact absurd (by simp [h]) (hf p (by simp [pools]))
  | some q =>
    have hq := List.find?_some hf
    rw [h1 p q t h (by simpa using hq)]

/-- A tag without a holding. -/
theorem State.holding_eq_none {s : State} {t : Tag} : s.holding t = none ↔ HoldsNothing s t := by
  simp [State.holding, HoldsNothing, pools]

/-- The slot of a tag's binding, where no other has the tag (R123). -/
theorem Store.slotOf_of_binding {st : Store} {k : BindSlot} {b : Binding} (h1 : ShadowLaw st)
    (h : st.shadow[k] = some b) : st.slotOf b.tag = some k := by
  unfold Store.slotOf
  cases hf : (List.finRange 32).find? (fun j => match st.shadow[j] with
      | some d => d.tag == b.tag
      | none => false) with
  | none =>
    rw [List.find?_eq_none] at hf
    have := hf k (by simp)
    rw [h] at this
    simp at this
  | some j =>
    have hj := List.find?_some hf
    cases hd : st.shadow[j] with
    | none => rw [hd] at hj; simp at hj
    | some d =>
      rw [hd] at hj
      rw [h1 j k d b hd h (.inl (by simpa using hj))]

/-- The binding of a tag, where no other has the tag (R123). -/
theorem Store.bindingOf_of_binding {st : Store} {k : BindSlot} {b : Binding} (h1 : ShadowLaw st)
    (h : st.shadow[k] = some b) : st.bindingOf b.tag = some b := by
  unfold Store.bindingOf
  rw [Store.slotOf_of_binding h1 h]
  exact h

/-- A tag without a binding has no slot. -/
theorem State.slotOf_eq_none {s : State} {t : Tag} (h : Unbound s t) : s.store.slotOf t = none := by
  unfold Store.slotOf
  rw [List.find?_eq_none]
  intro k _
  cases hb : s.store.shadow[k] with
  | none => simp
  | some b => simpa using h k b hb

/-- A tag without a binding. -/
theorem State.bindingOf_eq_none {s : State} {t : Tag} (h : Unbound s t) : s.store.bindingOf t = none := by
  simp [Store.bindingOf, State.slotOf_eq_none h]

/-! ### Cut operations on the flash -/

/-- All that a cut erase can leave: the remains, partial, or a sector that was not blank and that it has not touched (R145). -/
theorem eraseLeft_cases (before reads : Sector) :
    classify (eraseLeft before reads) = .partially ∨ eraseLeft before reads = before ∧ before ≠ blankSector := by
  unfold eraseLeft
  split
  · exact .inl ‹_›
  · split
    · exact .inl (by decide)
    · exact .inr ⟨rfl, ‹_›⟩

/-- Every partial reading can be what a cut erase leaves (R125). -/
theorem eraseLeft_of_partial {before reads : Sector} (h : classify reads = .partially) :
    eraseLeft before reads = reads := if_pos h

/-- A cut erase never leaves an erased sector (R125, R145). -/
theorem eraseLeft_ne_blank (before reads : Sector) : eraseLeft before reads ≠ blankSector := fun h => by
  rcases eraseLeft_cases before reads with h' | ⟨h', hb⟩
  · rw [h] at h'
    exact absurd h' (by decide)
  · exact hb (h'.symm.trans h)

end Sys2Proof.Machine
end

