-- ==== Sys2Proof/Laws/Checks.lean ====
section
/-! SUPPORT. A check by evaluation for each law of Safety.lean that quantifies over tags or bindings: where the check answers
true, the law holds. For concrete states, such as the one after reset. -/

namespace Sys2Proof.Machine

open Sys2Proof.Safety

/-- Evaluates `FreeListLaw`. -/
def State.freeListCheck (s : State) : Bool :=
  decide s.lease.freeList.Nodup && pools.all fun p => s.lease.freeList.contains p == (s.leaseOf p).isFree

theorem freeListLaw_of_check {s : State} (h : s.freeListCheck = true) : FreeListLaw s := by
  simp only [State.freeListCheck, Bool.and_eq_true, decide_eq_true_eq, List.all_eq_true] at h
  refine ⟨h.1, fun p => ?_⟩
  have := h.2 p (by simp [pools])
  rw [← List.contains_iff_mem, beq_iff_eq.1 this]

/-- Evaluates `OfferLaw`. -/
def State.offerCheck (s : State) : Bool :=
  (pools.all fun p => match s.leaseOf p with
    | .offered t c k =>
      match s.lease.slots[k] with
      | some o => o.addr == p && o.tag == t && o.cls == c
      | none => false
    | _ => true) &&
  (List.finRange 8).all fun k => match s.lease.slots[k] with
    | some o => decide (s.leaseOf o.addr = .offered o.tag o.cls k)
    | none => true

theorem offerLaw_of_check {s : State} (h : s.offerCheck = true) : OfferLaw s := by
  simp only [State.offerCheck, Bool.and_eq_true, List.all_eq_true] at h
  refine ⟨fun p t c k hp => ?_, fun k o hk => ?_⟩
  · have := h.1 p (by simp [pools])
    rw [hp] at this
    cases hs : s.lease.slots[k] with
    | none => simp [hs] at this
    | some o => exact ⟨o, rfl, by simpa [hs, and_assoc] using this⟩
  · have := h.2 k (by simp)
    rw [hk] at this
    simpa using this

/-- Evaluates `OneHolderLaw`. -/
def State.oneHolderCheck (s : State) : Bool :=
  pools.all fun p => match (s.leaseOf p).holder with
    | some t => pools.all fun q => q == p || (s.leaseOf q).holder != some t
    | none => true

theorem oneHolderLaw_of_check {s : State} (h : s.oneHolderCheck = true) : OneHolderLaw s := by
  simp only [State.oneHolderCheck, List.all_eq_true] at h
  intro p q t hp hq
  have := h p (by simp [pools])
  rw [hp] at this
  simp only [List.all_eq_true] at this
  have := this q (by simp [pools])
  rw [hq] at this
  simp only [Bool.or_eq_true, beq_iff_eq, bne_self_eq_false, Bool.false_eq_true, or_false] at this
  exact this.symm

theorem tableLaws_of_checks {s : State} (h1 : s.freeListCheck = true) (h2 : s.offerCheck = true)
    (h3 : s.oneHolderCheck = true) : TableLaws s :=
  ⟨freeListLaw_of_check h1, offerLaw_of_check h2, oneHolderLaw_of_check h3⟩

/-- Evaluates `DeadlineLaw`. -/
def State.deadlineCheck (s : State) : Bool :=
  (pools.all fun p => (s.leaseOf p).deadline.all fun d => decide (s.lease.clock.toNat ≤ d.toNat)) &&
    s.lease.window.all fun c => decide (s.lease.clock.toNat ≤ c.toNat)

theorem deadlineLaw_of_check {s : State} (h : s.deadlineCheck = true) : DeadlineLaw s := by
  simp only [State.deadlineCheck, Bool.and_eq_true, List.all_eq_true] at h
  refine ⟨fun p d hd => ?_, fun c hc => ?_⟩
  · have := h.1 p (by simp [pools])
    rw [hd] at this
    simpa using this
  · have := h.2
    rw [hc] at this
    simpa using this

/-- Evaluates `ShadowLaw`. -/
def Store.shadowCheck (st : Store) : Bool :=
  (List.finRange 32).all fun j => match st.shadow[j] with
    | some b => (List.finRange 32).all fun k => match st.shadow[k] with
      | some d => j == k || (b.tag != d.tag && b.addr != d.addr)
      | none => true
    | none => true

theorem shadowLaw_of_check {st : Store} (h : st.shadowCheck = true) : ShadowLaw st := by
  simp only [Store.shadowCheck, List.all_eq_true] at h
  intro j k b d hj hk hbd
  have := h j (by simp)
  rw [hj] at this
  simp only [List.all_eq_true] at this
  have := this k (by simp)
  rw [hk] at this
  simp only [Bool.or_eq_true, beq_iff_eq, Bool.and_eq_true, bne_iff_ne] at this
  rcases this with h | ⟨h1, h2⟩
  · exact h
  · rcases hbd with hbd | hbd
    · exact absurd hbd h1
    · exact absurd hbd h2

/-- Evaluates `PinnedLaw` of a part whose lease engine is ready. -/
def State.pinnedCheck (s : State) : Bool :=
  ((List.finRange 32).all fun k => match s.store.shadow[k] with
    | some b => decide (s.leaseOf b.addr = .reserved) || (s.leaseOf b.addr).holder == some b.tag
    | none => true) &&
  (match s.store.superseded with
    | some p => decide (s.leaseOf p = .reserved)
    | none => true) &&
  pools.all fun p => decide (s.leaseOf p ≠ .reserved) || s.store.pinned p

theorem pinnedLaw_of_check {s : State} (h : s.pinnedCheck = true) : PinnedLaw s := by
  simp only [State.pinnedCheck, Bool.and_eq_true, List.all_eq_true] at h
  obtain ⟨⟨h1, h2⟩, h3⟩ := h
  intro _
  refine ⟨fun k b hk => ?_, fun p hp => ?_, fun p hp => ?_⟩
  · have := h1 k (by simp)
    rw [hk] at this
    simpa using this
  · rw [hp] at h2
    simpa using h2
  · simpa [hp] using h3 p (by simp [pools])

/-! ### The store -/

/-- Evaluates `IsCurrent`. -/
def Store.isCurrentCheck (st : Store) (k : SectorId) : Bool :=
  (List.finRange 4).any fun l => (st.current[l]).any fun x => x.1 == k

theorem isCurrent_iff_check {st : Store} {k : SectorId} : IsCurrent st k ↔ st.isCurrentCheck k = true := by
  simp only [IsCurrent, Store.isCurrentCheck, List.any_eq_true, Option.any_eq_true]
  constructor
  · rintro ⟨l, q, h⟩
    exact ⟨l, by simp, (k, q), h, by simp⟩
  · rintro ⟨l, _, x, h, hx⟩
    exact ⟨l, x.2, by rw [h, ← beq_iff_eq.1 hx]⟩

/-- Evaluates `Agrees`. -/
def Store.agreesCheck (st : Store) (shadow : Vector (Option Binding) 32) (l : LogicalId) : Bool :=
  match st.current[l] with
  | some (k, q) => decide (st.flash[k] = programmed l q true (imageSlots shadow l))
  | none => (List.finRange 8).all fun i => (shadow[shadowSlot l i]).isNone

theorem agrees_of_check {st : Store} {shadow : Vector (Option Binding) 32} {l : LogicalId}
    (h : st.agreesCheck shadow l = true) : Agrees st shadow l := by
  unfold Store.agreesCheck at h
  unfold Agrees
  cases hc : st.current[l] with
  | some x => simpa [hc] using h
  | none => simpa [hc] using h

/-- Evaluates `MapLaw` and `CurrentValid`. -/
def Store.mapCheck (st : Store) : Bool :=
  ((List.finRange 5).all fun k => !st.erased[k] || (!st.bad[k] && decide (st.flash[k] = blankSector))) &&
  (List.finRange 4).all fun l => match st.current[l] with
    | some (k, q) => !st.erased[k] && !st.bad[k] && decide (validImage (st.flash[k]) = some (l, q)) &&
      (List.finRange 4).all fun m => m == l || !(st.current[m]).any fun x => x.1 == k
    | none => true

theorem mapLaw_of_check {st : Store} (h : st.mapCheck = true) : MapLaw st ∧ CurrentValid st := by
  simp only [Store.mapCheck, Bool.and_eq_true, List.all_eq_true] at h
  obtain ⟨h1, h2⟩ := h
  have h3 : ∀ (l : LogicalId) (k : SectorId) (q : Half), st.current[l] = some (k, q) →
      (((!st.erased[k]) = true ∧ (!st.bad[k]) = true) ∧ decide (validImage (st.flash[k]) = some (l, q)) = true) ∧
        ∀ m ∈ List.finRange 4, (m == l || !(st.current[m]).any fun x => x.1 == k) = true := by
    intro l k q e
    have := h2 l (by simp)
    rw [e] at this
    simpa only [Bool.and_eq_true, List.all_eq_true] using this
  refine ⟨⟨fun k e => ?_, fun l k q e => ?_, fun l m k q r e e' => ?_⟩, fun l k q e => ?_⟩
  · simpa [e] using h1 k (by simp)
  · obtain ⟨⟨⟨a, b⟩, _⟩, _⟩ := h3 l k q e
    exact ⟨by simpa using a, by simpa using b⟩
  · have := (h3 l k q e).2 m (by simp)
    rw [e'] at this
    simp only [Option.any_some, beq_self_eq_true, Bool.not_true, Bool.or_false, beq_iff_eq] at this
    exact this.symm
  · simpa using (h3 l k q e).1.2

theorem covered_of_check {st : Store} {k : SectorId} (h : (st.bad[k] || st.erased[k] || st.isCurrentCheck k) = true) :
    Covered st k := by
  simp only [Bool.or_eq_true] at h
  rcases h with (h | h) | h
  · exact .inl h
  · exact .inr (.inl h)
  · exact .inr (.inr (isCurrent_iff_check.2 h))

end Sys2Proof.Machine
end

