-- ==== Sys2Proof/WellFormed.lean ====
section
/-! DEFINITION. Which commands are well formed: operands that the event of the row can bring. The meanings are total and do
not rely on it. -/

namespace Sys2Proof

open Sys2Proof.Machine

/-- The bytes of a transaction as the part receives it up to its acknowledge slot: 5 + n bytes, or, with a length above 12,
the four bytes after which interpretation stops (R99, R101). -/
def WellFormed.transaction (bytes : List Byte) : Bool :=
  match bytes with
  | _ :: _ :: _ :: n :: rest =>
    if n.toNat ≤ Config.maxPayload then rest.length == n.toNat + 1 else rest.isEmpty
  | _ => false

/-- The parameters of a request that the port hands on: at most 20 bytes (R156). -/
def WellFormed.params (ps : List Byte) : Bool := ps.length ≤ Config.maxParams

/-- A source that may send RESOLVE or WHOIS, 0x02 to 0x7F (R107). -/
def WellFormed.asker (src : Byte) : Bool := decide (2 ≤ src.toNat ∧ src.toNat < 128)

/-- A command is well formed. -/
def Instr.wellFormed : Instr → Bool
  | .hardReset _ _ => true
  | .scanSectorErase _ => true
  | .scanRepair _ _ _ _ => true
  | .scanEnd => true
  | .leaseClockTick => true
  | .expiry _ => true
  | .endOfQuarantine _ => true
  | .adoptionWindowClose => true
  | .offerTimeout _ => true
  | .probeTimeout _ => true
  | .busStartByOther => true
  | .ownStart => true
  | .currentMessageChoice => true
  | .arbitrationLost bit => decide (bit < 8 * (5 + Config.maxPayload))
  | .transactionReceived bytes => WellFormed.transaction bytes
  | .brokenTransaction _ => true
  | .busStop => true
  | .busIdleGap => true
  | .ownTransmissionAck => true
  | .attempt _ => true
  | .stuckBus => true
  | .faultExit => true
  | .join tag _ _ => validTag tag
  | .claim tag _ => validTag tag
  | .renew _ tag _ => validTag tag
  | .release _ tag => validTag tag
  | .resolve src query => WellFormed.asker src && validTag query
  | .whois src _ => WellFormed.asker src
  | .snoopReport _ => true
  | .offerCompletion tag _ => validTag tag
  | .offerDrop tag _ => validTag tag
  | .probeCompletion _ tag => validTag tag
  | .probeDrop _ tag => validTag tag
  | .evictOutcome _ => true
  | .replyOutcome => true
  | .hselNFall _ => true
  | .hselNRise _ _ => true
  | .nop ps => WellFormed.params ps
  | .ident ps => WellFormed.params ps
  | .status ps => WellFormed.params ps
  | .acknowledge ps => WellFormed.params ps
  | .enable ps => WellFormed.params ps
  | .lookupAddress ps => WellFormed.params ps
  | .lookupAddressClear ps => WellFormed.params ps
  | .lookupTag ps => WellFormed.params ps
  | .scan ps => WellFormed.params ps
  | .freeList ps => WellFormed.params ps
  | .revoke ps => WellFormed.params ps
  | .withholdOn ps => WellFormed.params ps
  | .withholdOff ps => WellFormed.params ps
  | .classSet ps => WellFormed.params ps
  | .classGet ps => WellFormed.params ps
  | .timingSet ps => WellFormed.params ps
  | .timingGet ps => WellFormed.params ps
  | .bind ps => WellFormed.params ps
  | .unbind ps => WellFormed.params ps
  | .bindingRead ps => WellFormed.params ps
  | .restart ps sent _ => WellFormed.params ps && decide (sent ≤ 8 * (5 + Config.maxPayload) + 3)
  | .imageProgram _ => true
  | .validMark _ => true
  | .targetErase _ => true
  | .supersededErase _ => true
  | .hardResetEnd => true
  | .powerLoss _ => true

end Sys2Proof
end

