-- ==== Sys2Proof/Tests/Slice0.lean ====
section
/-! SUPPORT. Tests: ill-formed terms that the checks refuse, worked values of the manual, one step of many commands, and for
each statement with hypotheses a concrete state that meets them. Expected results come from spec/, not from the model. -/

namespace Sys2Proof.Tests

set_option maxRecDepth 8000
set_option Elab.async false

open Sys2Proof.Machine Sys2Proof.Safety

/-- The next state, where there is one. -/
def after : Result → Option State
  | .next t => some t
  | .fault _ => none
  | .refused _ => none

/-! ### Ill-formed commands are refused (WellFormed) -/

theorem test_wf_arbitration : (Instr.arbitrationLost 135).wellFormed = true ∧ (Instr.arbitrationLost 136).wellFormed = false := by
  decide
theorem test_wf_transaction : (Instr.transactionReceived [1, 15, 0x14, 1, 0, 0]).wellFormed = true ∧
    (Instr.transactionReceived [1, 15, 0x14, 1, 0]).wellFormed = false ∧
    (Instr.transactionReceived [1, 15, 0x14]).wellFormed = false := by decide
theorem test_wf_long_transaction : (Instr.transactionReceived [1, 15, 0x14, 13]).wellFormed = true ∧
    (Instr.transactionReceived [1, 15, 0x14, 13, 0]).wellFormed = false := by decide
theorem test_wf_join_tag : (Instr.join 0 0 0).wellFormed = false := by decide
theorem test_wf_claim_tag : (Instr.claim 0xFFFFFFFFFFFF 0x10).wellFormed = false := by decide
theorem test_wf_renew_tag : (Instr.renew 0 0 0).wellFormed = false := by decide
theorem test_wf_release_tag : (Instr.release 0 0).wellFormed = false := by decide
theorem test_wf_resolve : (Instr.resolve 1 5).wellFormed = false ∧ (Instr.resolve 2 0).wellFormed = false := by decide
theorem test_wf_whois : (Instr.whois 0x80 5).wellFormed = false ∧ (Instr.whois 0x7F 5).wellFormed = true := by decide
theorem test_wf_offer_outcomes : (Instr.offerCompletion 0 0).wellFormed = false ∧ (Instr.offerDrop 0 0).wellFormed = false := by
  decide
theorem test_wf_probe_outcomes : (Instr.probeCompletion 0 0).wellFormed = false ∧ (Instr.probeDrop 0 0).wellFormed = false := by
  decide
theorem test_wf_params : (Instr.nop (List.replicate 20 0)).wellFormed = true ∧
    (Instr.nop (List.replicate 21 0)).wellFormed = false := by decide
theorem test_wf_restart : (Instr.restart [] 139 false).wellFormed = true ∧ (Instr.restart [] 140 false).wellFormed = false := by
  decide

/-! ### Bytes -/

/-- The three check bytes of 10.1. -/
theorem test_check_bytes : crc8 [0x00, 0x00] = 0xD7 ∧ crc8 [0x00, 0x00, 0x00] = 0x2B := by decide

/-- R126: a wrap of the sequence number. -/
theorem test_newer_wraps : newer 0 0xFFFF = true ∧ newer 0xFFFF 0 = false ∧ newer 0x8000 0 = false := by decide

/-- 10.3: the field layout of an OFFER and of the two ANSWERs. -/
theorem test_message_payloads :
    (Message.offer 0x010203040506 0 2 3600).payload = [1, 2, 3, 4, 5, 6, 0x10, 2, 0x0E, 0x10] ∧
    (Message.answerResolve 0x20 0x010203040506 .boundAbsent 0x30).payload = [1, 2, 3, 4, 5, 6, 0x08, 0x30] ∧
    (Message.answerWhois 0x20 0x90 none 0).payload = [0x90, 0x07, 0, 0, 0, 0, 0, 0] := by decide

/-! ### A state with an entry of every kind -/

/-- A lease without notice, conflict or mark. -/
def plain (l : Lease) : Entry := ⟨l, .absent, 0, false⟩

/-- Entries 0 to 14 in all the states; the rest FREE. -/
def table : Vector Entry 112 :=
  ((((((((((((((Vector.replicate 112 (plain (.free none))).set 0 (plain (.offered 1 0 0))).set 1 (plain (.live 2 1 100))).set 2
    (plain (.stale 3 0 2 .due))).set 3 (plain (.quarantine 4 100))).set 4 (plain .reserved)).set 5 (plain (.free (some 6)))).set 6
    (plain .withheld)).set 7 ⟨.live 7 2 101, .waiting 99 .admin, 254, true⟩).set 8 (plain (.offered 8 0 1))).set 9
    (plain (.stale 9 1 1 .sending))).set 10 (plain (.stale 10 1 1 (.waiting 0)))).set 11 ⟨.stale 11 0 3 .sending,
    .sending 98 .moved, 0, false⟩).set 12 (plain (.quarantine 12 101))).set 13 (plain (.live 13 3 100))

/-- Slot 0 QUEUED, slot 1 WAITING with its timer run out. -/
def offers : Vector (Option OfferSlot) 8 :=
  ((Vector.replicate 8 none).set 0 (some ⟨1, 0, 0, 600, .free, .queued⟩)).set 1 (some ⟨8, 8, 0, 600, .quarantine, .waiting 0⟩)

/-- Tag 5 bound to pool entry 4 in slot 0. -/
def shadow : Vector (Option Binding) 32 := (Vector.replicate 32 none).set 0 (some ⟨5, 4, 2⟩)

/-- Sector 0 holds that binding under sequence number 1. -/
def flash : Vector Sector 5 := (Vector.replicate 5 blankSector).set 0 (programmed 0 1 true (imageSlots shadow 0))

def store : Store :=
  { flash := flash
    shadow := shadow
    mode := .ready
    current := (Vector.replicate 4 none).set 0 (some (0, 1))
    erased := (Vector.replicate 5 true).set 0 false
    bad := Vector.replicate 5 false
    last := .scan .clean }

/-- A running part at lease time 100 with the window closed. Class 3 has no probes here. -/
def full : State :=
  { State.reset with
    lease :=
      { ready := true
        table := table
        freeList := 5 :: (List.finRange 112).drop 14
        slots := offers
        classes := classDefaults.set 3 ⟨65535, 0, false⟩
        timing := timingDefaults
        clock := 100
        window := none }
    bus := ⟨.idle .gap, false, [], none, [], .started 0, none⟩
    store := store }

/-- `full` with one report passed. -/
def told (r : Report) : State := { full with bus := { full.bus with reports := [r] } }

/-- `full` with a request in the buffer. -/
def asks (code : RequestCode) (ps : List Byte) : State := { full with port := ⟨true, none, .pending code ps⟩ }

/-- `full` with the transceiver in a state. -/
def tuned (e : Engine) : State := { full with bus := { full.bus with engine := e } }

/-- `full` with another store state. -/
def inMode (m : StoreMode) : State := { full with store := { store with mode := m } }

/-- `full` with one entry replaced. -/
def holding (p : Pool) (l : Lease) : State := { full with lease := { full.lease with table := table.set p (plain l) } }

theorem told_reported (r : Report) : Reported (told r) r [] := ⟨⟨rfl, rfl⟩, rfl⟩

theorem asks_asked (code : RequestCode) (ps : List Byte) : Asked (asks code ps) code ps := ⟨rfl, rfl⟩

theorem holdsNothing_of_check {s : State} {t : Tag} (h : (pools.all fun p => (s.leaseOf p).holder != some t) = true) :
    HoldsNothing s t := by
  intro p
  simpa using List.all_eq_true.1 h p (by simp [pools])

theorem unbound_of_check {s : State} {t : Tag}
    (h : ((List.finRange 32).all fun k => match s.store.shadow[k] with
      | some b => b.tag != t
      | none => true) = true) : Unbound s t := by
  intro k b hb
  have := List.all_eq_true.1 h k (by simp)
  rw [hb] at this
  simpa using this

theorem full_tableLaws : TableLaws full :=
  tableLaws_of_checks (by decide +kernel) (by decide +kernel) (by decide +kernel)

theorem full_shadowLaw : ShadowLaw store := shadowLaw_of_check (by decide +kernel)

theorem full_bindingLaws : BindingLaws full :=
  ⟨full_shadowLaw, (by intro r h; cases h), pinnedLaw_of_check (by decide +kernel)⟩

theorem full_gateLaw : GateLaw full :=
  ⟨fun h => absurd rfl h, ⟨fun _ _ => nofun, fun _ => rfl⟩, nofun, nofun⟩

/-! ### Witnesses: the step, resets and the scan -/

theorem witness_step : (State.reset.withPending [.scanEnd, .busStop]).pending = [.scanEnd, .busStop] := rfl

theorem witness_emptyQueue : State.reset.pending = [] ∧ ¬ Serving State.reset ∧ full.pending = [] ∧ Serving full ∧
    full.leaseOf 10 = .stale 10 1 1 (.waiting 0) :=
  ⟨rfl, by simp [Serving, State.reset, LeaseEngine.notReady], rfl, ⟨rfl, rfl⟩, by decide⟩

/-- `full` held in reset with a frame line low, its lease engine not ready. -/
def held : State :=
  { State.reset with power := .held, store := .afterReset flash, port := ⟨true, none, .empty⟩ }

theorem held_gateLaw : GateLaw held := ⟨fun _ => rfl, ⟨nofun, fun h => absurd rfl (h _)⟩, fun _ _ _ => nofun, fun _ => rfl⟩

theorem witness_notRunning : held.power ≠ .running ∧ actsWithoutRunning .busStop = false ∧
    GateLaw held ∧ held.lease.ready = false ∧ exec .busStop held = .next held :=
  ⟨by decide, rfl, held_gateLaw, rfl, rfl⟩

theorem witness_notHandedOver :
    hostRequest (.freeList [0]) = some (.freeList, [0]) ∧ full.port.buffer ≠ .pending .freeList [0] ∧
    nodeReport (.release 1 2) = some (.request 0x11 (.release 2)) ∧
    full.bus.reports.head? ≠ some (.request 0x11 (.release 2)) := by decide

theorem witness_hardResetEnd : held.power = .held := rfl

/-- The image of `store` with another mark, for a sector that a read finds. -/
def image (mark : Bool) : Sector := programmed 0 2 mark (imageSlots shadow 0)

def scanning (stage : ScanStage) : State :=
  { State.reset with store := { store with mode := .scanning ⟨stage, true, false⟩ } }

/-- The scan's erases and repairs: both read-backs of an erase, a repair on the lowest erased sector, with one retry, on a
sector that fails, and with none left. -/
theorem witness_scan :
    (scanning (.erasing [1])).power = .running ∧
    (scanning (.erasing [1])).store.mode = .scanning ⟨.erasing [1], true, false⟩ ∧ image false ≠ blankSector ∧
    (scanning (.repairing [0] [])).store.mode = .scanning ⟨.repairing [0] [], true, false⟩ ∧
    store.current[(0 : LogicalId)] = some (0, 1) ∧ (1 : SectorId) ≠ 0 ∧ store.erased[(1 : SectorId)] = true ∧
    (1 : SectorId) ∉ ([] : List SectorId) ∧
    (∀ j : SectorId, j < 1 → store.erased[j] = true → j ∈ ([] : List SectorId)) ∧
    { image false with mark := false } = programmed 0 (1 + 1) false (imageSlots shadow 0) ∧
    ¬ ({ image false with mark := false } = programmed 0 (1 + 1) false (imageSlots shadow 0) ∧ false = true) ∧
    (∀ j : SectorId, store.erased[j] = true → j ∈ ([1, 2, 3, 4] : List SectorId)) := by decide

/-- A scan with a slot of sector 0 that does not read as a binding. -/
def rejecting (stage : ScanStage) : State :=
  { scanning stage with store := { (scanning stage).store with
      flash := flash.set 0 (programmed 0 1 true ((imageSlots shadow 0).set 1 .unreadable)) } }

/-- Both ends of the load: nothing to repair, and a logical sector to repair. -/
theorem witness_load :
    (scanning (.erasing [])).power = .running ∧
    (scanning (.erasing [])).store.mode = .scanning ⟨.erasing [], true, false⟩ ∧
    (scanning (.erasing [])).store.loadShadow.repairs = [] ∧ (rejecting (.erasing [])).power = .running ∧
    (rejecting (.erasing [])).store.mode = .scanning ⟨.erasing [], true, false⟩ ∧
    (rejecting (.erasing [])).store.loadShadow.repairs = [0] := by decide +kernel

theorem witness_scanEnd : (scanning (.repairing [] [])).power = .running ∧
    (scanning (.repairing [] [])).store.mode = .scanning ⟨.repairing [] [], true, false⟩ := by decide

/-! ### Witnesses: clock and timers -/

/-- Every address WITHHELD: an empty pool. -/
def emptyPool : State :=
  { full with
    lease := { full.lease with
      table := Vector.replicate 112 (plain .withheld), freeList := [], slots := Vector.replicate 8 none }
    store := .afterReset flash }

/-- `full` with the window open. -/
def openUntil (c : LeaseTime) : State := { full with lease := { full.lease with window := some c } }

/-- Deadlines and closing points in the second of the clock, and one second after it; and a part with none in it. -/
theorem witness_clock :
    Serving full ∧ full.lease.clock.toNat + 65536 < 2 ^ 32 ∧
    (Serving (openUntil 100) ∧ (openUntil 100).lease.window = some (openUntil 100).lease.clock) ∧
    (Serving (openUntil 101) ∧ (openUntil 101).lease.window ≠ some (openUntil 101).lease.clock) ∧
    (full.leaseOf 3 = .quarantine 4 full.lease.clock ∧ full.store.pinned 3 = false) ∧
    (full.leaseOf 12 = .quarantine 12 101 ∧ full.lease.clock = 100) ∧
    (Serving emptyPool ∧ (∀ p, (emptyPool.leaseOf p).deadline ≠ some emptyPool.lease.clock) ∧
      emptyPool.lease.window ≠ some emptyPool.lease.clock) :=
  ⟨⟨rfl, rfl⟩, by decide, ⟨⟨rfl, rfl⟩, rfl⟩, ⟨⟨rfl, rfl⟩, by decide⟩, ⟨by decide, by decide⟩, ⟨by decide, rfl⟩, ⟨rfl, rfl⟩,
    by decide +kernel, by decide⟩

theorem witness_expiry :
    Serving full ∧ full.leaseOf 1 = .live 2 1 full.lease.clock ∧ (full.lease.classes[(1 : ClassId)]).probes ≠ 0 ∧
    full.leaseOf 13 = .live 13 3 full.lease.clock ∧ (full.lease.classes[(3 : ClassId)]).probes = 0 ∧
    full.leaseOf 7 = .live 7 2 101 ∧ full.lease.clock = 100 ∧ ∀ t c, full.leaseOf 0 ≠ .live t c full.lease.clock :=
  ⟨⟨rfl, rfl⟩, by decide, by decide, by decide, by decide, by decide, rfl, fun _ _ => nofun⟩

/-- A WAITING offer run out, with each return state, and pinned; and a QUEUED one whose copy is dropped. -/
def offering (ret : ReturnState) : State :=
  { full with lease := { full.lease with slots := full.lease.slots.set 1 (some ⟨8, 8, 0, 600, ret, .waiting 0⟩) } }

/-- The drop of a copy whose slot is WAITING, and of one whose slot is gone. -/
theorem witness_dropWithoutEffect :
    (let r : Report := .outcome (.offer 8 8 0 600) false;
      Reported (told r) r [] ∧ (told r).leaseOf 8 = .offered 8 0 1 ∧
      (told r).lease.slots[(1 : SlotId)] = some ⟨8, 8, 0, 600, .quarantine, .waiting 0⟩) ∧
    (let r : Report := .outcome (.offer 2 1 0 600) false;
      Reported (told r) r [] ∧ OfferLaw (told r) ∧ ∀ c k, (told r).leaseOf 1 ≠ .offered 2 c k) ∧
    (let r : Report := .outcome (.probe 2 3) false;
      Reported (told r) r [] ∧ ∀ c n, (told r).leaseOf 2 ≠ .stale 3 c n .sending) :=
  ⟨⟨told_reported _, rfl, rfl⟩, ⟨told_reported _, full_tableLaws.2.1, fun _ _ => nofun⟩, told_reported _, fun c n h => by
    have e : full.leaseOf 2 = .stale 3 0 2 .due := by decide
    rw [show (told _).leaseOf 2 = full.leaseOf 2 from rfl, e] at h
    cases h⟩

theorem witness_lapse (ret : ReturnState) :
    (offering ret).leaseOf 8 = .offered 8 0 1 ∧
    (offering ret).lease.slots[(1 : SlotId)] = some ⟨8, 8, 0, 600, ret, .waiting 0⟩ ∧ Serving (offering ret) ∧
    (offering ret).store.pinned 8 = false ∧
    (let s : State := { offering ret with store := { store with shadow := shadow.set 1 (some ⟨8, 8, 0⟩) } };
      s.leaseOf 8 = .offered 8 0 1 ∧ s.store.pinned 8 = true) ∧
    (let r : Report := .outcome (.offer 1 0 0 600) false;
      Reported (told r) r [] ∧ (told r).leaseOf 0 = .offered 1 0 0 ∧
      (told r).lease.slots[(0 : SlotId)] = some ⟨1, 0, 0, 600, .free, .queued⟩) :=
  ⟨rfl, rfl, ⟨rfl, rfl⟩, rfl, ⟨rfl, rfl⟩, told_reported _, rfl, rfl⟩

theorem witness_probe :
    Serving full ∧ full.leaseOf 10 = .stale 10 1 1 (.waiting 0) ∧
    (Serving (holding 10 (.stale 10 1 2 (.waiting 0))) ∧
      (holding 10 (.stale 10 1 2 (.waiting 0))).leaseOf 10 = .stale 10 1 2 (.waiting 0)) ∧
    ∀ p t, p = 9 ∧ t = 9 ∨ p = 11 ∧ t = 11 →
      Reported (told (.outcome (.probe p t) false)) (.outcome (.probe p t) false) [] ∧
      full.leaseOf 9 = .stale 9 1 1 .sending ∧ full.leaseOf 11 = .stale 11 0 3 .sending :=
  ⟨⟨rfl, rfl⟩, by decide, ⟨⟨rfl, rfl⟩, rfl⟩, fun _ _ _ => ⟨told_reported _, by decide, by decide⟩⟩

/-- `full` with the outcome of an older EVICT to entry 11 passed, while the one that replaced it is being sent. -/
def replaced : State :=
  { full with bus := { full.bus with
      reports := [.outcome (.evict 11 98 .moved) false], current := some ⟨.notice (.evict 11 98 .moved), 3⟩ } }

theorem witness_outcomes :
    Reported (told (.outcome (.offer 1 0 0 600) true)) (.outcome (.offer 1 0 0 600) true) [] ∧
    (Reported (told (.outcome (.offer 2 1 0 600) true)) (.outcome (.offer 2 1 0 600) true) [] ∧
      OfferLaw (told (.outcome (.offer 2 1 0 600) true)) ∧ ∀ c k, full.leaseOf 1 ≠ .offered 2 c k) ∧
    Reported (told (.outcome (.probe 9 9) true)) (.outcome (.probe 9 9) true) [] ∧
    (Reported (told (.outcome (.probe 2 3) true)) (.outcome (.probe 2 3) true) [] ∧
      ∀ c n, full.leaseOf 2 ≠ .stale 3 c n .sending) ∧
    (Reported (told (.outcome (.evict 11 98 .moved) false)) (.outcome (.evict 11 98 .moved) false) [] ∧
      (full.entry 11).evict = .sending 98 .moved) ∧
    (Reported (told (.outcome (.evict 7 99 .admin) true)) (.outcome (.evict 7 99 .admin) true) [] ∧
      ∀ u k, (full.entry 7).evict ≠ .sending u k) ∧
    (∀ r : Report, r = .outcome (.evict 11 98 .moved) false →
      (Reported replaced r [] ∧ (replaced.entry 11).evict = .sending 98 .moved ∧
        replaced.bus.current = some ⟨.notice (.evict 11 98 .moved), 3⟩) ∧
      (let s : State := { full with bus := { full.bus with reports := [r, r] } };
        Reported s r [r] ∧ r ∈ [r])) ∧
    (Message.refuse 0x0F 1 .revoked).isPlainReply = true :=
  ⟨told_reported _, ⟨told_reported _, full_tableLaws.2.1, fun _ _ => nofun⟩, told_reported _,
    ⟨told_reported _, fun c n h => by
      have e : full.leaseOf 2 = .stale 3 0 2 .due := by decide
      rw [e] at h
      cases h⟩,
    ⟨told_reported _, by decide⟩, ⟨told_reported _, fun _ _ => nofun⟩,
    fun r h => by subst h; exact ⟨⟨⟨⟨rfl, rfl⟩, rfl⟩, by decide, rfl⟩, ⟨⟨rfl, rfl⟩, rfl⟩, by simp⟩, rfl⟩

/-! ### Witnesses: joining and upkeep -/

theorem notLast_of_check {s : State} {t : Tag} (h : (pools.all fun p => (s.leaseOf p).last != some t) = true) (p : Pool) :
    (∀ d, s.leaseOf p ≠ .quarantine t d) ∧ s.leaseOf p ≠ .free (some t) := by
  have := List.all_eq_true.1 h p (by simp [pools])
  refine ⟨fun d e => ?_, fun e => ?_⟩ <;> simp [e, Lease.last] at this

theorem witness_choice :
    TableLaws full ∧ ShadowLaw full.store ∧
    full.leaseOf 0 = .offered 1 0 0 ∧ full.leaseOf 1 = .live 2 1 100 ∧ full.leaseOf 2 = .stale 3 0 2 .due ∧
    (HoldsNothing full 5 ∧ full.store.shadow[(0 : BindSlot)] = some ⟨5, 4, 2⟩) ∧
    (HoldsNothing full 4 ∧ Unbound full 4 ∧ full.leaseOf 3 = .quarantine 4 100 ∧
      ∀ q : Pool, q < 3 → (full.leaseOf q).last ≠ some 4) ∧
    (HoldsNothing full 6 ∧ Unbound full 6 ∧ (∀ p d, full.leaseOf p ≠ .quarantine 6 d) ∧
      full.leaseOf 5 = .free (some 6) ∧ (∀ q : Pool, q < 5 → (full.leaseOf q).last ≠ some 6) ∧
      poolOfByte 0x15 = some 5 ∧ poolOfByte 0x0F = none) ∧
    (HoldsNothing full 50 ∧ Unbound full 50 ∧ (∀ p, full.leaseOf p ≠ .free (some 50)) ∧
      full.lease.freeList = 5 :: (List.finRange 112).drop 14) ∧
    (TableLaws emptyPool ∧ ShadowLaw emptyPool.store ∧ HoldsNothing emptyPool 50 ∧ Unbound emptyPool 50 ∧
      (∀ p, emptyPool.leaseOf p ≠ .free (some 50)) ∧ emptyPool.lease.freeList = []) :=
  ⟨full_tableLaws, full_shadowLaw, by decide, by decide, by decide,
    ⟨holdsNothing_of_check (by decide +kernel), by decide⟩,
    ⟨holdsNothing_of_check (by decide +kernel), unbound_of_check (by decide +kernel), by decide, by decide +kernel⟩,
    ⟨holdsNothing_of_check (by decide +kernel), unbound_of_check (by decide +kernel),
      fun p d e => absurd (congrArg Lease.last e)
        ((by decide +kernel : ∀ p, (full.leaseOf p).state = .quarantine → (full.leaseOf p).last ≠ some 6) p (by rw [e]; rfl)),
      by decide, by decide +kernel, by decide, by decide⟩,
    ⟨holdsNothing_of_check (by decide +kernel), unbound_of_check (by decide +kernel),
      fun p => (notLast_of_check (by decide +kernel) p).2, rfl⟩,
    ⟨tableLaws_of_checks (by decide +kernel) (by decide +kernel) (by decide +kernel),
      shadowLaw_of_check (by decide +kernel), holdsNothing_of_check (by decide +kernel),
      unbound_of_check (by decide +kernel), fun p => (notLast_of_check (by decide +kernel) p).2, rfl⟩⟩

theorem witness_joinOffer :
    Reported (told (.request 0x0F (.join 5 3 0))) (.request 0x0F (.join 5 3 0)) [] ∧ classOfByte 3 = some 3 ∧
    (told (.request 0x0F (.join 5 3 0))).chooseAddress 5 0 = .offer 4 .reserved ∧
    (∀ t c k, full.leaseOf 4 ≠ .offered t c k) ∧ full.lease.slots[(2 : SlotId)] = none ∧
    ∀ j : SlotId, j < 2 → full.lease.slots[j] ≠ none :=
  ⟨told_reported _, by decide, by decide +kernel, fun _ _ _ => nofun, by decide, by decide⟩

/-- `full` with every offer slot occupied. -/
def slotsFull : State :=
  { full with
    lease := { full.lease with slots := Vector.replicate 8 (some ⟨1, 0, 0, 600, .free, .queued⟩) }
    bus := { full.bus with reports := [.request 0x0F (.join 50 0 0)] } }

theorem witness_joinNoOffer :
    (Reported (told (.request 0x0F (.join 1 4 0))) (.request 0x0F (.join 1 4 0)) [] ∧ 4 ≤ (4 : Byte).toNat) ∧
    (Reported (told (.request 0x0F (.join 1 3 0))) (.request 0x0F (.join 1 3 0)) [] ∧ (3 : Byte).toNat < 4 ∧
      full.chooseAddress 1 0 = .duplicate 0 ∧ full.leaseOf 0 = .offered 1 0 0 ∧
      full.lease.slots[(0 : SlotId)] = some ⟨1, 0, 0, 600, .free, .queued⟩) ∧
    emptyPool.chooseAddress 50 0 = .poolEmpty ∧
    (Reported slotsFull (.request 0x0F (.join 50 0 0)) [] ∧ slotsFull.chooseAddress 50 0 = .offer 5 .free ∧
      ∀ k : SlotId, slotsFull.lease.slots[k] ≠ none) :=
  ⟨⟨told_reported _, by decide⟩, ⟨told_reported _, by decide, by decide +kernel, by decide, by decide⟩, by decide +kernel,
    ⟨⟨rfl, rfl⟩, rfl⟩, by decide +kernel, by decide⟩

/-- A CLAIM outside the pool on either side, of a LIVE lease, of a WAITING and of a QUEUED offer. -/
theorem witness_claim (t : Tag) (a : Byte) :
    Reported (told (.request 0x0F (.claim t a))) (.request 0x0F (.claim t a)) [] ∧
    poolOfByte 0x0F = none ∧ poolOfByte 0x80 = none ∧
    (poolOfByte 0x11 = some 1 ∧ full.leaseOf 1 = .live 2 1 100) ∧
    (poolOfByte 0x18 = some 8 ∧ full.leaseOf 8 = .offered 8 0 1 ∧
      full.lease.slots[(1 : SlotId)] = some ⟨8, 8, 0, 600, .quarantine, .waiting 0⟩) ∧
    (poolOfByte 0x10 = some 0 ∧ (∀ c d, full.leaseOf 0 ≠ .live 1 c d) ∧
      full.lease.slots[(0 : SlotId)] = some ⟨1, 0, 0, 600, .free, .queued⟩) :=
  ⟨told_reported _, by decide, by decide, ⟨by decide, by decide⟩, ⟨by decide, by decide, by decide⟩,
    by decide, fun _ _ => nofun, by decide⟩

theorem witness_renew (p : Pool) (t : Tag) (cls : Byte) :
    Reported (told (.request (poolByte p) (.renew t cls))) (.request (poolByte p) (.renew t cls)) [] ∧
    classOfByte 3 = some 3 ∧ full.leaseOf 1 = .live 2 1 100 ∧ full.leaseOf 2 = .stale 3 0 2 .due ∧
    (full.leaseOf 3 = .quarantine 4 100 ∧ HoldsNothing full 4 ∧ Unbound full 4) ∧
    (full.leaseOf 5 = .free (some 6) ∧ HoldsNothing full 50 ∧ Unbound full 50) ∧
    (full.leaseOf 4 = .reserved ∧ ShadowLaw full.store ∧ full.store.shadow[(0 : BindSlot)] = some ⟨5, 4, 2⟩ ∧
      HoldsNothing full 5) :=
  ⟨told_reported _, by decide, by decide, by decide,
    ⟨by decide, holdsNothing_of_check (by decide +kernel), unbound_of_check (by decide +kernel)⟩,
    ⟨by decide, holdsNothing_of_check (by decide +kernel), unbound_of_check (by decide +kernel)⟩,
    by decide, full_shadowLaw, by decide, holdsNothing_of_check (by decide +kernel)⟩

/-- RENEW is refused: class 4; entries of another tag; OFFERED; WITHHELD; RESERVED for another tag; a tag with another
holding; a bound tag elsewhere. -/
theorem witness_renewRefused (p : Pool) (t : Tag) (cls : Byte) :
    Reported (told (.request (poolByte p) (.renew t cls))) (.request (poolByte p) (.renew t cls)) [] ∧
    4 ≤ (4 : Byte).toNat ∧ full.leaseOf 1 = .live 2 1 100 ∧ full.leaseOf 2 = .stale 3 0 2 .due ∧
    full.leaseOf 0 = .offered 1 0 0 ∧ full.leaseOf 3 = .quarantine 4 100 ∧ full.leaseOf 6 = .withheld ∧
    (full.leaseOf 4 = .reserved ∧
      ∀ (j : BindSlot) (b : Binding), full.store.shadow[j] = some b → b.addr = 4 → b.tag ≠ 50) ∧
    ((full.leaseOf 5).holder ≠ some 2 ∧ ¬ HoldsNothing full 2) ∧ ¬ Unbound full 5 :=
  ⟨told_reported _, by decide, by decide, by decide, by decide, by decide, by decide,
    ⟨by decide, fun j b h _ => unbound_of_check (s := full) (by decide +kernel) j b h⟩,
    ⟨by decide, fun h => h 1 rfl⟩, fun h => h 0 ⟨5, 4, 2⟩ rfl rfl⟩

theorem witness_release (p : Pool) (t : Tag) :
    Reported (told (.request (poolByte p) (.release t))) (.request (poolByte p) (.release t)) [] ∧
    full.leaseOf 1 = .live 2 1 100 ∧ full.leaseOf 2 = .stale 3 0 2 .due ∧
    (∀ c d, full.leaseOf 0 ≠ .live 1 c d) ∧ ∀ c n f, full.leaseOf 0 ≠ .stale 1 c n f :=
  ⟨told_reported _, by decide, by decide, fun _ _ => nofun, fun _ _ _ => nofun⟩

/-- A snoop report for a lease, for one at count 254, for unheld entries with the window open and closed, and for a
quarantine under a period of 30 and of 0. -/
theorem witness_snoop (p : Pool) :
    Reported (told (.snoop p)) (.snoop p) [] ∧ (full.entry 7).lease = .live 7 2 101 ∧ (full.entry 7).conflicts = 254 ∧
    (full.entry 2).lease = .stale 3 0 2 .due ∧
    ((∀ t c d, (full.entry 6).lease ≠ .live t c d) ∧ (∀ t c n f, (full.entry 6).lease ≠ .stale t c n f) ∧
      (openUntil 101).lease.window ≠ none ∧ full.lease.window = none ∧
      ∀ t d, (full.entry 6).lease ≠ .quarantine t d) ∧
    ((full.entry 3).lease = .quarantine 4 100 ∧ full.lease.timing.quarantine ≠ 0 ∧ full.store.pinned 3 = false) ∧
    (let u : State := { full with lease := { full.lease with timing := ⟨300, 2000, 0, 120⟩ } };
      (u.entry 3).lease = .quarantine 4 100 ∧ u.lease.timing.quarantine = 0) :=
  ⟨told_reported _, by decide, by decide, by decide,
    ⟨fun _ _ _ => nofun, fun _ _ _ _ => nofun, nofun, rfl, fun _ _ => nofun⟩, ⟨by decide, by decide, by decide⟩,
    by decide, rfl⟩

theorem witness_queries (r : Request) :
    Reported (told (.request 0x02 r)) (.request 0x02 r) [] ∧ OneHolderLaw (told (.request 0x02 r)) ∧ ShadowLaw full.store ∧
    full.leaseOf 1 = .live 2 1 100 ∧ full.leaseOf 2 = .stale 3 0 2 .due ∧
    (HoldsNothing full 5 ∧ full.store.shadow[(0 : BindSlot)] = some ⟨5, 4, 2⟩) ∧
    (HoldsNothing full 50 ∧ Unbound full 50) ∧
    (0x0F : Byte).toNat < 0x10 ∧ 0x80 ≤ (0x80 : Byte).toNat ∧ (0x10 : Byte) = poolByte 0 ∧ (0x7F : Byte) = poolByte 111 :=
  ⟨told_reported _, full_tableLaws.2.2, full_shadowLaw, by decide, by decide,
    ⟨holdsNothing_of_check (by decide +kernel), by decide⟩,
    ⟨holdsNothing_of_check (by decide +kernel), unbound_of_check (by decide +kernel)⟩, by decide, by decide, by decide,
    by decide⟩

/-! ### Witnesses: the bus -/

theorem notNoticed_of_check {s : State} {p : Pool} (h : ((s.entry p).evict.isWaiting || (s.leaseOf p).probeDue) = false) :
    ¬ Noticed s p := by
  rintro (⟨t, r, e⟩ | ⟨t, c, n, e⟩) <;> simp [e, EvictDue.isWaiting, Lease.probeDue] at h

/-- `full` with a GRANT in the queue. -/
def queueing : State := { full with bus := { full.bus with queue := [.grant 1 2 1 60] } }

/-- The GRANT as current message with seven attempts counted. -/
def sendingGrant (e : Engine) : State :=
  { full with bus := { full.bus with queue := [.grant 1 2 1 60], current := some ⟨.head, 7⟩, engine := e } }

theorem witness_currentChoice :
    full.power = .running ∧ full.bus.engine ≠ .fault ∧ (sendingGrant (.idle .gap)).bus.current ≠ none ∧
    (queueing.bus.current = none ∧ queueing.bus.queue ≠ []) ∧
    (full.bus.current = none ∧ full.bus.queue = [] ∧ Noticed full 2 ∧ (∀ q : Pool, q < 2 → ¬ Noticed full q) ∧
      (∀ u r, (full.entry 2).evict ≠ .waiting u r) ∧ full.leaseOf 2 = .stale 3 0 2 .due) ∧
    (Noticed (holding 2 .withheld) 7 ∧ (∀ q : Pool, q < 7 → ¬ Noticed (holding 2 .withheld) q) ∧
      ((holding 2 .withheld).entry 7).evict = .waiting 99 .admin) ∧
    (emptyPool.bus.queue = [] ∧ ∀ p : Pool, ¬ Noticed emptyPool p) :=
  ⟨rfl, by decide, by decide, by decide,
    ⟨rfl, rfl, .inr ⟨3, 0, 2, by decide⟩, fun q h => notNoticed_of_check ((by decide +kernel : ∀ q : Pool, q < 2 →
      ((full.entry q).evict.isWaiting || (full.leaseOf q).probeDue) = false) q h), fun _ _ => nofun, by decide⟩,
    ⟨.inl ⟨99, .admin, by decide⟩, fun q h => notNoticed_of_check ((by decide +kernel : ∀ q : Pool, q < 7 →
      (((holding 2 .withheld).entry q).evict.isWaiting || ((holding 2 .withheld).leaseOf q).probeDue) = false) q h),
      by decide⟩,
    rfl, fun p => notNoticed_of_check ((by decide +kernel : ∀ q : Pool,
      ((emptyPool.entry q).evict.isWaiting || (emptyPool.leaseOf q).probeDue) = false) p)⟩

/-- An own START with a current message, with one chosen in the event, and with none; a bit sent as 1 and one sent as 0. -/
theorem witness_ownStart :
    (sendingGrant (.idle .gap)).power = .running ∧ (sendingGrant (.idle .gap)).bus.engine = .idle .gap ∧
    (sendingGrant (.idle .gap)).bus.currentMessage = some (.grant 1 2 1 60) ∧
    (queueing.bus.current = none ∧ (after (exec .currentMessageChoice queueing)).bind (·.bus.currentMessage) =
      some (.grant 1 2 1 60)) ∧
    (emptyPool.bus.current = none ∧ after (exec .currentMessageChoice emptyPool) = some emptyPool) ∧
    (tuned (.idle .stopped)).bus.engine ≠ .idle .gap ∧
    (bitsOf [0x11])[3]? = some true ∧ (bitsOf [0x11])[2]? ≠ some true := by decide +kernel

theorem witness_ownEnd (e : Engine) (h : e = .sending (Message.grant 1 2 1 60).bytes false) :
    (sendingGrant e).power = .running ∧ (sendingGrant e).bus.engine = .sending (Message.grant 1 2 1 60).bytes false ∧
    (sendingGrant e).bus.current = some ⟨.head, 7⟩ ∧ (sendingGrant e).bus.currentMessage = some (.grant 1 2 1 60) :=
  ⟨rfl, h, rfl, rfl⟩

/-- The watch law of every state of the transceiver that a statement speaks of, and a part in FAULT. -/
theorem witness_stuck :
    (∀ e, e ≠ .fault → (tuned e).power = .running ∧ WatchLaw (tuned e) ∧ WatchLaw (sendingGrant e)) ∧
    (let s : State := { full with bus := { full.bus with engine := .fault, watch := .stopped } };
      s.power = .running ∧ WatchLaw s ∧ s.bus.engine = .fault) :=
  ⟨fun _ h => ⟨rfl, ⟨nofun, fun e => absurd e h⟩, ⟨nofun, fun e => absurd e h⟩⟩, rfl, ⟨fun _ => rfl, fun _ => rfl⟩, rfl⟩

theorem witness_conditions (e : Engine) : (tuned e).power = .running ∧ (tuned e).bus.engine = e := ⟨rfl, rfl⟩

/-- A JOIN and a RELEASE that read as requests. -/
theorem witness_requests :
    requestOf 0x0F 0x11 (tagBytes 5 ++ [0, 0x10]) = some (.join 5 0 0x10) ∧
    requestOf 0x10 0x14 (tagBytes 5) = some (.release 5) ∧ requestOf 0x0F 0x14 (tagBytes 5) = none := by decide

theorem witness_acceptance :
    (tuned (.receiving (.listening []))).power = .running ∧ full.lease.ready = true ∧
    full.bus.queue.length + full.bus.reserved < 8 ∧ (tagBytes 5 ++ [0, 0x10]).length ≤ 12 ∧
    ([] : List Bool).isPrefixOf (bitsOf (withCheck ([0x01, 0x0F, 0x11, 8] ++ (tagBytes 5 ++ [0, 0x10])))) = true ∧
    (let b : BusEngine := { full.bus with queue := List.replicate 7 (.grant 1 2 1 60), reports := [.request 0x0F (.claim 5 0)] };
      8 ≤ b.queue.length + b.reserved) ∧
    State.reset.lease.ready = false := by decide

theorem witness_foreign :
    (tuned (.receiving (.listening [false]))).power = .running ∧ (0x02 : Byte) ≠ 0x01 ∧ (0x10 : Byte) = poolByte 0 ∧
    (∀ p, (0x0F : Byte) ≠ poolByte p) ∧ (List.replicate 12 (0 : Byte)).length ≤ 12 ∧
    [false].isPrefixOf (bitsOf (withCheck [0x02, 0x10, 0, 0])) = true ∧ (0 : Byte) ≠ crc8 [0x02, 0x10, 0, 0] ∧
    [false].isPrefixOf (bitsOf ([0x02, 0x10, 0, 0] ++ [0])) = true ∧
    12 < (13 : Byte).toNat ∧ [false].isPrefixOf (bitsOf [0x02, 0x10, 0, 13]) = true := by decide

theorem witness_restartCut : 8 * (Message.grant 1 2 1 60).bytes.length > 0 ∧
    8 * (Message.grant 1 2 1 60).bytes.length > 104 ∧ 8 * (Message.grant 1 2 1 60).bytes.length > 111 ∧ (Message.grant 1 2 1 60).bytes.length = 14 := by decide

/-! ### Witnesses: the host port and its requests -/

/-- `full` in a frame with this content. -/
def framed (out : FrameOut) : State := { full with port := ⟨true, some ⟨.mode0, out⟩, .empty⟩ }

theorem witness_frameBegins : full.port.hselLow = false ∧ full.power = .running ∧
    ({ held with port := ⟨false, none, .empty⟩ } : State).power ≠ .running := by decide

/-- HSDO in a frame of filler, with HSEL_N high, and in a frame not taken up. -/
theorem witness_hsdo : (framed .filler).hsdoDriven = true ∧ (framed .filler).hsdo 2 = some 0x00 ∧ full.hsdo 0 = none ∧
    ({ held with power := .running } : State).hsdoDriven = false := by decide

/-- A frame not taken up, one of filler, and one that delivers a byte less than its reply. -/
theorem witness_undelivered :
    held.port.frame = none ∧ (framed .filler).port.frame = some ⟨.mode0, .filler⟩ ∧
    (framed (.reply ⟨.ok, 0, [7]⟩)).port.frame = some ⟨.mode0, .reply ⟨.ok, 0, [7]⟩⟩ ∧ [0, 0, 0, 0].length < [7].length + 4 := by
  decide

/-- Frames that delivered what was owed, at the boundary of each check. -/
theorem witness_judged :
    (framed .idleFill).port.frame = some ⟨.mode0, .idleFill⟩ ∧ (framed (.reply ⟨.ok, 0, [7]⟩)).port.frame =
      some ⟨.mode0, .reply ⟨.ok, 0, [7]⟩⟩ ∧ [7].length + 4 ≤ ([0, 0, 0xD7, 0, 0] : List Byte).length ∧
    20 < (21 : Byte).toNat ∧ (20 : Byte).toNat ≤ 20 ∧ ([0, 0] : List Byte).length < (0 : Byte).toNat + 3 ∧
    (1 : Fin 8) ≠ 0 ∧ ([] : List Byte).length = (0 : Byte).toNat ∧ (0 : Byte) ≠ crc8 [0, 0] ∧ (0xD7 : Byte) = crc8 [0, 0] ∧
    requestOfByte 0x05 = none ∧ RequestCode.bind.byte = 0x40 ∧ full.lease.ready = true ∧ State.reset.lease.ready = false := by
  decide

theorem witness_refusedRequest :
    hostRequest (.nop [1]) = some (.nop, [1]) ∧ Asked (asks .nop [1]) .nop [1] ∧ [(1 : Byte)].length ≠ paramLength .nop ∧
    (after (exec (.nop [1]) (asks .nop [1]))).map (·.port.buffer) = some (.ready ⟨.badParam, 0x00, []⟩) :=
  ⟨rfl, asks_asked _ _, by decide, by decide⟩

theorem witness_nopAndIdent :
    Asked (asks .nop []) .nop [] ∧ Asked (asks .ident []) .ident [] ∧ (framed .idleFill).power = .running ∧
    (framed .idleFill).port.frame = some ⟨.mode0, .idleFill⟩ ∧
    (framed (.reply ⟨.ok, 0, [7]⟩)).port.frame = some ⟨.mode0, .reply ⟨.ok, 0, [7]⟩⟩ ∧
    [(7 : Byte)].length + 4 ≤ [(0 : Byte), 0].length + 3 :=
  ⟨asks_asked _ _, asks_asked _ _, rfl, rfl, rfl, by decide⟩

theorem witness_status : Asked (asks .status []) .status [] ∧ TableLaws (asks .status []) ∧
    (asks .status []).lease.ready = true ∧ State.reset.lease.ready = false :=
  ⟨asks_asked _ _, full_tableLaws, rfl, rfl⟩

theorem asks_gateLaw (code : RequestCode) (ps : List Byte) : GateLaw (asks code ps) :=
  ⟨fun h => absurd rfl h, ⟨fun _ _ => nofun, fun _ => rfl⟩, nofun, nofun⟩

theorem witness_attention (b : Byte) : Asked (asks .acknowledge [b]) .acknowledge [b] ∧ Asked (asks .enable [b]) .enable [b] :=
  ⟨asks_asked _ _, asks_asked _ _⟩

theorem witness_lookups (ps : List Byte) :
    Asked (asks .lookupAddress ps) .lookupAddress ps ∧ (∀ p, (0x0F : Byte) ≠ poolByte p) ∧ (∀ p, (0x80 : Byte) ≠ poolByte p) ∧
    ((2 : Byte) ≠ 0x00 ∧ (2 : Byte) ≠ 0x01) ∧
    Asked (asks .lookupTag (tagBytes 5)) .lookupTag (tagBytes 5) ∧ OneHolderLaw (asks .lookupTag (tagBytes 5)) ∧
    ShadowLaw full.store ∧ validTag 0 = false ∧ validTag 5 = true ∧
    ((full.leaseOf 1).holder = some 2 ∧ Unbound full 2) ∧
    ((holding 4 (.live 5 2 300)).leaseOf 4 = .live 5 2 300 ∧ (holding 4 (.live 5 2 300)).store.shadow[(0 : BindSlot)] =
      some ⟨5, 4, 2⟩) ∧
    (HoldsNothing full 5 ∧ full.store.shadow[(0 : BindSlot)] = some ⟨5, 4, 2⟩) ∧ (HoldsNothing full 50 ∧ Unbound full 50) :=
  ⟨asks_asked _ _, by decide, by decide, by decide, asks_asked _ _, full_tableLaws.2.2, full_shadowLaw, by decide, by decide,
    ⟨by decide, unbound_of_check (by decide +kernel)⟩, by decide, ⟨holdsNothing_of_check (by decide +kernel), by decide⟩,
    holdsNothing_of_check (by decide +kernel), unbound_of_check (by decide +kernel)⟩

theorem witness_scanRequest : Asked (asks .scan []) .scan [] := asks_asked _ _

theorem witness_freeList : Asked (asks .freeList [112]) .freeList [112] ∧ 111 < (112 : Byte).toNat ∧
    Asked (asks .freeList [111]) .freeList [111] ∧ (111 : Byte).toNat ≤ 111 :=
  ⟨asks_asked _ _, by decide, asks_asked _ _, by decide⟩

/-- Addresses on either side of the pool, and an option beyond the two. -/
theorem witness_badParam (a o : Byte) :
    Asked (asks .revoke [a]) .revoke [a] ∧ Asked (asks .withhold [a, o]) .withhold [a, o] ∧ (∀ p, (0x0F : Byte) ≠ poolByte p) ∧
    (∀ p, (0x80 : Byte) ≠ poolByte p) ∧ ((2 : Byte) ≠ 0x00 ∧ (2 : Byte) ≠ 0x01) :=
  ⟨asks_asked _ _, asks_asked _ _, by decide, by decide, by decide⟩

theorem witness_revoke (p : Pool) : Asked (asks .revoke [poolByte p]) .revoke [poolByte p] ∧
    full.leaseOf 1 = .live 2 1 100 ∧ full.leaseOf 2 = .stale 3 0 2 .due ∧ full.leaseOf 0 = .offered 1 0 0 ∧
    (full.leaseOf 3 = .quarantine 4 100 ∧ full.store.pinned 3 = false) ∧ full.leaseOf 5 = .free (some 6) ∧
    full.leaseOf 4 = .reserved ∧ full.leaseOf 6 = .withheld :=
  ⟨asks_asked _ _, by decide, by decide, by decide, ⟨by decide, by decide⟩, by decide, by decide, by decide⟩

theorem witness_withhold (p : Pool) (o : Byte) : Asked (asks .withhold [poolByte p, o]) .withhold [poolByte p, o] ∧
    full.store.pinned 4 = true ∧ full.leaseOf 4 = .reserved ∧ (full.store.pinned 5 = false ∧ full.leaseOf 5 = .free (some 6)) ∧
    (full.store.pinned 3 = false ∧ full.leaseOf 3 = .quarantine 4 100) ∧
    (full.store.pinned 6 = false ∧ full.leaseOf 6 = .withheld) ∧
    (full.store.pinned 1 = false ∧ (full.leaseOf 1).holder ≠ none) ∧ full.leaseOf 1 ≠ .withheld :=
  ⟨asks_asked _ _, by decide, by decide, by decide, by decide, by decide, by decide, by decide⟩

theorem witness_classAndTiming (ps : List Byte) :
    Asked (asks .classSet ps) .classSet ps ∧ Asked (asks .timingSet ps) .timingSet ps ∧ Asked (asks .timingGet []) .timingGet [] ∧
    10 ≤ (0 : Byte).toNat * 256 + (10 : Byte).toNat ∧ (0 : Byte).toNat * 256 + (9 : Byte).toNat < 10 ∧
    (3 : Byte).toNat = (3 : ClassId).val ∧ 4 ≤ (4 : Byte).toNat ∧ 2 ≤ (2 : Byte).toNat ∧
    (50 ≤ (50 : Half).toNat ∧ (50 : Half).toNat % 10 = 0 ∧ (10000 : Half).toNat ≤ 10000 ∧ (10000 : Half).toNat % 100 = 0 ∧
      (3600 : Half).toNat ≤ 3600) ∧ ¬ 50 ≤ (49 : Half).toNat ∧ ¬ (3601 : Half).toNat ≤ 3600 ∧
    full.lease.window = none ∧ (openUntil 120).lease.window ≠ none ∧
    (100 : Half).toNat ≤ full.lease.clock.toNat ∧ full.lease.clock.toNat < (101 : Half).toNat ∧
    full.lease.timing = ⟨300, 2000, 30, 120⟩ :=
  ⟨asks_asked _ _, asks_asked _ _, asks_asked _ _, by decide, by decide, by decide, by decide, by decide, by decide, by decide,
    by decide, rfl, nofun, by decide, by decide, rfl⟩

theorem witness_classGet : Asked (asks .classGet [4]) .classGet [4] ∧ 4 ≤ (4 : Byte).toNat ∧
    Asked (asks .classGet [3]) .classGet [3] ∧ (3 : Byte).toNat = (3 : ClassId).val ∧ Asked (asks .restart []) .restart [] ∧
    (after (exec (.restart [] 0 false) (asks .restart []))).isSome = true ∧
    (scanning (.repairing [] [])).store.mode = .scanning ⟨.repairing [] [], true, false⟩ ∧
    (after (exec .scanEnd (scanning (.repairing [] [])))).isSome = true :=
  ⟨asks_asked _ _, by decide, asks_asked _ _, by decide, asks_asked _ _, by decide, by decide, by decide⟩

theorem witness_restart : Asked (asks .restart []) .restart [] ∧
    (let s : State := { asks .restart [] with bus := (sendingGrant (.sending (Message.grant 1 2 1 60).bytes true)).bus };
      Asked s .restart [] ∧ s.bus.engine = .sending (Message.grant 1 2 1 60).bytes true) :=
  ⟨asks_asked _ _, ⟨rfl, rfl⟩, rfl⟩

/-! ### Witnesses: the binding store -/

/-- A Bind with these parameters. -/
def bindAsk (t : Tag) (a : Pool) (c : ClassId) (f : Byte) : State :=
  asks .bind (tagBytes t ++ [poolByte a, byteOf c.val, f])

theorem bindAsk_laws (t : Tag) (a : Pool) (c : ClassId) (f : Byte) :
    TableLaws (bindAsk t a c f) ∧ BindingLaws (bindAsk t a c f) ∧ GateLaw (bindAsk t a c f) :=
  ⟨full_tableLaws, full_bindingLaws, asks_gateLaw _ _⟩

/-- An accepted Bind: of a new tag to a FREE address, by force to the LIVE address of another tag while it holds one
itself, and a move of the bound tag. -/
theorem witness_bindAccepted :
    Asked (bindAsk 2 5 0 0) .bind (tagBytes 2 ++ [poolByte 5, byteOf 0, 0]) ∧ store.mode = .ready ∧
    store.lowestErased = some 1 ∧
    (validTag 2 = true ∧ store.bindSlot 2 = some 1 ∧ store.outrun (logicalOf 1) (store.nextSeq (logicalOf 1)) = false ∧
      store.boundToOther 2 5 = false ∧ full.leaseOf 5 = .free (some 6) ∧ store.shadow[(1 : BindSlot)] = none) ∧
    (full.leaseOf 7 = .live 7 2 101 ∧ (full.leaseOf 1).holder = some 2 ∧ store.boundToOther 2 7 = false) ∧
    (store.bindSlot 5 = some 0 ∧ store.shadow[(0 : BindSlot)] = some ⟨5, 4, 2⟩ ∧ full.leaseOf 0 = .offered 1 0 0) :=
  ⟨asks_asked _ _, rfl, by decide +kernel, by decide +kernel, by decide +kernel, by decide +kernel⟩

/-- `store` in a rewrite that empties slot 0, at a step. -/
def unbinding (step : RewriteStep) : State :=
  { full with store := { store with
      mode := .rewriting ⟨.unbind 0 ⟨5, 4, 2⟩, 1, 2, step⟩
      erased := store.erased.set 1 false
      flash := match step with
        | .program => flash
        | .mark => flash.set 1 (programmed 0 2 false (Vector.replicate 8 .blank))
        | .eraseTarget => flash.set 1 (programmed 0 9 false (Vector.replicate 8 .blank))
        | .eraseOld _ => flash.set 1 (programmed 0 2 true (Vector.replicate 8 .blank)) } }

/-- Every slot occupied by other tags, for the Bind that finds no slot. -/
def fullShadow : Vector (Option Binding) 32 := Vector.ofFn fun k => some ⟨BitVec.ofNat 48 (200 + k.val), ⟨70 + k.val, by omega⟩, 0⟩

theorem witness_bindRefused (t : Tag) (a : Pool) (c : ClassId) (f : Byte) :
    Asked (bindAsk t a c f) .bind (tagBytes t ++ [poolByte a, byteOf c.val, f]) ∧ ShadowLaw (bindAsk t a c f).store ∧
    validTag 0 = false ∧ (∀ p, (0x80 : Byte) ≠ poolByte p) ∧ 4 ≤ (4 : Byte).toNat ∧ 2 ≤ (2 : Byte).toNat ∧
    (unbinding .program).store.mode = .rewriting ⟨.unbind 0 ⟨5, 4, 2⟩, 1, 2, .program⟩ ∧
    (inMode .degraded).store.mode = .degraded ∧ store.mode = .ready ∧
    (let u : Store := { store with bad := store.bad.set 2 true, flash := flash.set 2 (programmed 0 2 true (Vector.replicate 8 .blank)) };
      u.bindSlot 5 = some 0 ∧ u.outrun (logicalOf 0) (u.nextSeq (logicalOf 0)) = true) ∧
    store.boundToOther 2 4 = true ∧ full.leaseOf 6 = .withheld ∧
    (({ store with shadow := fullShadow } : Store).bindSlot 2 = none ∧
      ShadowLaw { store with shadow := fullShadow }) ∧
    (store.bindSlot 50 = some 1 ∧ (full.leaseOf 7).holder = some 7) ∧
    (store.shadow[(0 : BindSlot)] = some ⟨5, 4, 2⟩ ∧ (full.leaseOf 4).holder = none) :=
  ⟨asks_asked _ _, full_shadowLaw, by decide, by decide, by decide, by decide, rfl, rfl, rfl, by decide +kernel,
    by decide +kernel, by decide, ⟨by decide +kernel, shadowLaw_of_check (by decide +kernel)⟩, by decide +kernel,
    by decide⟩

theorem witness_unbind (t : Tag) (n : Byte) :
    Asked (asks .unbind (tagBytes t)) .unbind (tagBytes t) ∧ ShadowLaw full.store ∧ validTag 0 = false ∧
    store.mode = .ready ∧ Unbound full 50 ∧
    (store.shadow[(0 : BindSlot)] = some ⟨5, 4, 2⟩ ∧ store.outrun (logicalOf 0) (store.nextSeq (logicalOf 0)) = false ∧
      store.lowestErased = some 1) ∧
    Asked (asks .bindingRead [n]) .bindingRead [n] ∧ 31 < (32 : Byte).toNat ∧ (31 : Byte).toNat = (31 : BindSlot).val ∧
    (unbinding .program).store.mode = .rewriting ⟨.unbind 0 ⟨5, 4, 2⟩, 1, 2, .program⟩ :=
  ⟨asks_asked _ _, full_shadowLaw, by decide, rfl, unbound_of_check (by decide +kernel), by decide +kernel, asks_asked _ _,
    by decide, by decide, rfl⟩

/-- `full` with the first binding of logical sector 1 pending, its marked image the only one. -/
def binding : State :=
  { full with
    lease := { full.lease with table := table.set 20 (plain .reserved), freeList := full.lease.freeList.erase 20 }
    store := { store with
      shadow := shadow.set 8 (some ⟨60, 20, 0⟩)
      mode := .rewriting ⟨.bind 8 none ⟨60, 20, 0⟩ none, 1, 1, .mark⟩
      erased := store.erased.set 1 false
      flash := flash.set 1 (programmed 1 1 false (imageSlots (shadow.set 8 (some ⟨60, 20, 0⟩)) 1)) } }

theorem unbinding_bindingLaws (step : RewriteStep) : BindingLaws (unbinding step) := by
  refine ⟨full_shadowLaw, fun r h => ?_, ?_⟩
  · cases h
    rfl
  · cases step with
    | eraseOld b => cases b <;> exact pinnedLaw_of_check (by decide +kernel)
    | _ => exact pinnedLaw_of_check (by decide +kernel)

theorem binding_bindingLaws : BindingLaws binding := by
  refine ⟨shadowLaw_of_check (by decide +kernel), fun r h => ?_, pinnedLaw_of_check (by decide +kernel)⟩
  cases h
  exact ⟨rfl, rfl, nofun⟩

theorem witness_rewriteSteps (step : RewriteStep) :
    (unbinding step).power = .running ∧
    (unbinding step).store.mode = .rewriting ⟨.unbind 0 ⟨5, 4, 2⟩, 1, 2, step⟩ ∧
    (unbinding step).store.current[(0 : LogicalId)] = some (0, 1) ∧ image true ≠ blankSector ∧
    validImage (flash[(0 : SectorId)]) = some (0, 1) :=
  ⟨rfl, rfl, rfl, by decide, by decide⟩

theorem witness_rewriteOutcome (step : RewriteStep) :
    (unbinding step).store.mode = .rewriting ⟨.unbind 0 ⟨5, 4, 2⟩, 1, 2, step⟩ ∧ BindingLaws (unbinding step) ∧
    image true ≠ blankSector ∧ (unbinding step).store.current[(0 : LogicalId)] = some (0, 1) ∧
    binding.store.mode = .rewriting ⟨.bind 8 none ⟨60, 20, 0⟩ none, 1, 1, .mark⟩ ∧ BindingLaws binding ∧
    binding.store.current[(1 : LogicalId)] = none :=
  ⟨rfl, unbinding_bindingLaws step, by decide, rfl, rfl, binding_bindingLaws, rfl⟩

theorem full_storeLaws : StoreLaws full := by
  refine ⟨fun h => absurd rfl h, (mapLaw_of_check (by decide +kernel)).1, by decide +kernel, fun k => covered_of_check ?_,
    fun l => agrees_of_check ?_⟩
  · revert k
    decide +kernel
  · revert l
    decide +kernel

theorem unbinding_storeLaws (step : RewriteStep) : StoreLaws (unbinding step) := by
  refine ⟨fun h => absurd rfl h, ?_, by rcases step with _ | _ | _ | (_ | _) <;> decide, by rcases step with _ | _ | _ | (_ | _) <;> decide, ?_, ?_, ?_, ?_, ?_, ?_⟩
  · rcases step with _ | _ | _ | (_ | _) <;> exact (mapLaw_of_check (by decide +kernel)).1
  · rw [isCurrent_iff_check]
    rcases step with _ | _ | _ | (_ | _) <;> decide +kernel
  · intro k h
    apply covered_of_check
    revert k
    rcases step with _ | _ | _ | (_ | _) <;> decide +kernel
  · rcases step with _ | _ | _ | (_ | _) <;> exact (mapLaw_of_check (by decide +kernel)).2
  · rcases step with _ | _ | _ | (_ | _) <;> decide
  · rcases step with _ | _ | _ | (_ | _) <;> decide
  · intro l
    by_cases hl : (∃ retry, step = .eraseOld retry) ∧ l = 0
    · exact .inl ⟨hl.1, hl.2.trans (by decide : (0 : LogicalId) = logicalOf 0)⟩
    · refine .inr (agrees_of_check ?_)
      revert l
      rcases step with _ | _ | _ | (_ | _) <;> decide +kernel

/-- A cut in each step, with a sector that a read finds: as a hard reset, and as a loss of supply with the power-on after. -/
theorem witness_cutRewrite (step : RewriteStep) (reads : Sector) :
    (unbinding step).store.mode = .rewriting ⟨.unbind 0 ⟨5, 4, 2⟩, 1, 2, step⟩ ∧ StoreLaws (unbinding step) ∧
    ChangeLaw (unbinding step).store ∧ (unbinding step).store.current[(0 : LogicalId)] = some (0, 1) ∧
    (∀ k : SectorId, (unbinding step).store.bad[k] = true → validImage ((unbinding step).store.flash[k]) = none) ∧
    (∃ t u, exec (.hardReset false ⟨.program, reads⟩) (unbinding step) = .next t ∧ exec .hardResetEnd t = .next u) ∧
    ∃ v t u, exec (.powerLoss ⟨.program, reads⟩) (unbinding step) = .next v ∧
      exec (.hardReset false ⟨.program, reads⟩) v = .next t ∧ exec .hardResetEnd t = .next u :=
  ⟨rfl, unbinding_storeLaws step, (unbinding_bindingLaws step).2.1, rfl, by rcases step with _ | _ | _ | (_ | _) <;> decide +kernel,
    ⟨_, _, rfl, rfl⟩, _, _, _, rfl, rfl, rfl⟩

/-- Every store state that a cut may find, and a part without supply. -/
theorem witness_cutFlash :
    full.power ≠ .off ∧ (full.withPower .off).power = .off ∧ full.store.mode = .ready ∧
    (inMode .degraded).store.mode = .degraded ∧ held.store.mode = .scanning ⟨.notBegun, false, false⟩ ∧
    ((unbinding .program).store.mode = .rewriting ⟨.unbind 0 ⟨5, 4, 2⟩, 1, 2, .program⟩ ∧ (0 : SectorId) ≠ 1) ∧
    ((unbinding (.eraseOld true)).store.mode = .rewriting ⟨.unbind 0 ⟨5, 4, 2⟩, 1, 2, .eraseOld true⟩ ∧
      ∀ q, (unbinding (.eraseOld true)).store.current[(0 : LogicalId)] ≠ some (1, q)) ∧
    ((scanning (.erasing [1])).store.mode = .scanning ⟨.erasing [1], true, false⟩ ∧ (0 : SectorId) ≠ 1) ∧
    ((rejecting (.erasing [])).store.loadShadow.repairs = [0] ∧ (rejecting (.erasing [])).store.erased[(0 : SectorId)] = false ∧
      (∀ j : SectorId, j < 1 → (rejecting (.erasing [])).store.erased[j] = true → j ∈ ([] : List SectorId)) ∧
      ∀ q, (rejecting (.erasing [])).store.current[(0 : LogicalId)] ≠ some (2, q)) ∧
    (unbinding .eraseTarget).store.mode = .rewriting ⟨.unbind 0 ⟨5, 4, 2⟩, 1, 2, .eraseTarget⟩ ∧
    (unbinding (.eraseOld true)).store.current[(0 : LogicalId)] = some (0, 1) ∧
    (rejecting (.erasing [])).store.current[(0 : LogicalId)] = some (0, 1) :=
  ⟨by decide, by decide, rfl, rfl, rfl, ⟨rfl, by decide⟩, ⟨rfl, fun q h => by cases h⟩, ⟨rfl, by decide⟩,
    ⟨by decide +kernel, by decide, by decide, fun q h => by cases h⟩, rfl, rfl, rfl⟩

/-! ### Witnesses: laws and frames -/

theorem full_busLaws : BusLaws full := ⟨by decide, nofun, nofun, nofun, by unfold WatchLaw; decide⟩

/-- A state with a busy queue that keeps the bus laws at their limits. -/
theorem witness_busLaws : BusLaws (sendingGrant (.sending (Message.grant 1 2 1 60).bytes false)) := by
  refine ⟨by decide, fun n _ => List.cons_ne_nil _ _, fun c h => ?_, fun bytes h => ?_, by unfold WatchLaw; decide⟩
  · cases h
    decide
  · cases h
    exact ⟨_, rfl, rfl⟩

theorem witness_laws : TableLaws full ∧ (DeadlineLaw full ∧ full.lease.clock.toNat + 65536 < 2 ^ 32) ∧ BusLaws full ∧ ReplyLaw full ∧ GateLaw full ∧ BindingLaws full ∧ StoreLaws full ∧
    (∃ t, step full = .next t) ∧ (∃ t, step (full.withPending [.expiry 1]) = .next t) :=
  ⟨full_tableLaws, ⟨deadlineLaw_of_check (by decide +kernel), by decide⟩, full_busLaws, ⟨nofun, fun h => absurd rfl h⟩, full_gateLaw, full_bindingLaws, full_storeLaws, ⟨_, rfl⟩, ⟨_, rfl⟩⟩

theorem witness_frames : Serving full ∧ GateLaw full ∧ BindingLaws full ∧ isReset (.expiry 1) = false ∧
    (∃ t, exec (.expiry 1) full = .next t ∧ (t.leaseOf 1).state ≠ (full.leaseOf 1).state) ∧
    (full.entry 7).evict ≠ .absent ∧ touchesStore (.expiry 1) = false ∧ touchesPort (.expiry 1) = false ∧
    touchesAttention (.expiry 1) = false ∧ movesEngine (.expiry 1) = false :=
  ⟨⟨rfl, rfl⟩, full_gateLaw, full_bindingLaws, rfl, ⟨_, rfl, by decide⟩, by decide, rfl, rfl, rfl, rfl⟩

/-! ### One command on a small state, against the examples of the manual -/

/-- A running part at a lease time, the window closed, with one entry and an otherwise built table. -/
def small (clock : LeaseTime) (p : Pool) (l : Lease) (slot : Option OfferSlot) : State :=
  { State.reset with
    lease := { LeaseEngine.notReady with
      ready := true, clock := clock
      table := (LeaseEngine.notReady.table).set p (plain l)
      freeList := (List.finRange 112).filter fun q => q != p
      slots := LeaseEngine.notReady.slots.set 0 slot }
    store := { State.reset.store with mode := .ready } }

/-- `small` with a report passed. -/
def smallTold (s : State) (r : Report) : State := { s with bus := { s.bus with reports := [r] } }

/-- `small` with a request to its owner. -/
def smallAsks (s : State) (code : RequestCode) (ps : List Byte) : State := { s with port := ⟨false, none, .pending code ps⟩ }

/-- 3.12: expiry at 1100 with two probes. -/
theorem test_expiry : (after (exec (.expiry 0x1A) (small 1100 0x1A (.live 0x00B200000012 0 1100) none))).map
    (fun t => (t.entry 0x1A).lease) = some (.stale 0x00B200000012 0 2 .due) := by decide +kernel

/-- 3.12: the last probe timeout at 1104. -/
theorem test_probeTimeout : (after (exec (.probeTimeout 0x1A) (small 1104 0x1A (.stale 0x00B200000012 0 1 (.waiting 0)) none))).map
    (fun t => t.entry 0x1A) = some ⟨.quarantine 0x00B200000012 1134, .absent, 0, true⟩ := by decide +kernel

/-- 3.12: the end of quarantine at 1134. -/
theorem test_endOfQuarantine : (after (exec (.endOfQuarantine 0x1A) (small 1134 0x1A (.quarantine 0x00B200000012 1134) none))).map
    (fun t => ((t.entry 0x1A).lease, t.lease.freeList.length, t.lease.freeList.getLast?)) =
      some (.free (some 0x00B200000012), 112, some 0x1A) := by decide +kernel

/-- 3.12, R50: a lease with deadline 1100 whose expiry is not commanded in that second expires before the clock rises, and
the quarantine of a class without probes is counted from it; one with deadline 1101 stands. -/
theorem test_tickEndsTheSecond :
    (after (exec .leaseClockTick (small 1100 0x1A (.live 0x00B200000012 0 1100) none))).map
      (fun t => ((t.entry 0x1A).lease, t.lease.clock)) = some (.stale 0x00B200000012 0 2 .due, 1101) ∧
    (after (exec .leaseClockTick full)).map (fun t => ((t.entry 13).lease, (t.entry 3).lease, (t.entry 7).lease)) =
      some (.quarantine 13 130, .free (some 4), .live 7 2 101) := by decide +kernel

/-- R36, R67: timers that have run out are taken at the end of the millisecond, and running ones count down. -/
theorem test_millisecond :
    (after (step full)).map (fun t => ((t.entry 8).lease, t.lease.slots[(1 : SlotId)], (t.entry 10).lease)) =
      some (.quarantine 8 130, none, .quarantine 10 130) ∧
    (after (step (holding 10 (.stale 10 1 2 (.waiting 1))))).map (fun t => (t.entry 10).lease) =
      some (.stale 10 1 2 (.waiting 0)) := by decide +kernel

/-- 3.12: RENEW at 1103 from STALE keeps class 0. -/
theorem test_renewFromStale : (after (exec (.renew 0x1A 0x00B200000012 1)
    (smallTold (small 1103 0x1A (.stale 0x00B200000012 0 1 (.waiting 900)) none) (.request 0x2A (.renew 0x00B200000012 1))))).map
    (fun t => ((t.entry 0x1A).lease, t.bus.queue)) =
      some (.live 0x00B200000012 0 1703, [.grant 0x1A 0x00B200000012 0 600]) := by decide +kernel

/-- 1.8: JOIN with the hint 0x23 at 5 s. -/
theorem test_joinHint : (after (exec (.join 0x00A13C000031 0 0x23)
    (smallTold (small 5 0x6F .withheld none) (.request 0x0F (.join 0x00A13C000031 0 0x23))))).map
    (fun t => ((t.entry 0x13).lease, t.lease.freeList.contains 0x13, t.lease.slots[(0 : SlotId)], t.bus.queue)) =
      some (.offered 0x00A13C000031 0 0, false, some ⟨0x00A13C000031, 0x13, 0, 600, .free, .queued⟩,
        [.offer 0x00A13C000031 0x13 0 600]) := by decide +kernel

/-- 2.6, step k: the CLAIM of an offer that has lapsed. -/
theorem test_claimTooLate : (after (exec (.claim 0x00D0000000A5 0x12)
    (smallTold (small 100 0 .withheld none) (.request 0x0F (.claim 0x00D0000000A5 0x12))))).map
    (fun t => t.bus.queue) = some [.refuse 0x0F 0x00D0000000A5 .noOffer] := by decide +kernel

/-- 2.6, step i: the CLAIM of T2 at 100 s. -/
theorem test_claimWaiting : (after (exec (.claim 0x00C4A0000877 0x11)
    (smallTold (small 100 1 (.offered 0x00C4A0000877 0 0) (some ⟨0x00C4A0000877, 1, 0, 600, .quarantine, .waiting 300⟩))
      (.request 0x0F (.claim 0x00C4A0000877 0x11))))).map
    (fun t => ((t.entry 1).lease, t.lease.slots[(0 : SlotId)])) = some (.live 0x00C4A0000877 0 700, none) := by decide +kernel

/-- 2.6, step g: the lapse puts the address back at the head. -/
theorem test_offerTimeout : (after (exec (.offerTimeout 2)
    (small 100 2 (.offered 0x00D0000000A5 1 0) (some ⟨0x00D0000000A5, 2, 1, 60, .free, .waiting 0⟩)))).map
    (fun t => ((t.entry 2).lease, t.lease.freeList.head?, t.lease.slots[(0 : SlotId)])) = some (.free none, some 2, none) := by
  decide +kernel

/-- 1.8: RELEASE at 400 s. -/
theorem test_release : (after (exec (.release 0x13 0x00A13C000031)
    (smallTold (small 400 0x13 (.live 0x00A13C000031 0 900) none) (.request 0x23 (.release 0x00A13C000031))))).map
    (fun t => ((t.entry 0x13).lease, t.bus.queue)) = some (.quarantine 0x00A13C000031 430, []) := by decide +kernel

/-- 4.8: a stray message from 0x35 at 901. -/
theorem test_snoopConflict : (after (exec (.snoopReport 0x25)
    (smallTold (small 901 0x25 (.quarantine 0x00A13C000107 930) none) (.snoop 0x25)))).map
    (fun t => (t.entry 0x25, t.att.latched.conflict)) = some (⟨.quarantine 0x00A13C000107 931, .absent, 1, true⟩, true) := by
  decide +kernel

/-- 4.8: Revoke of 0x35 at 900. -/
theorem test_revoke : (after (exec (.revoke [0x35])
    (smallAsks (small 900 0x25 (.live 0x00A13C000107 2 3900) none) .revoke [0x35]))).map
    (fun t => (t.entry 0x25, t.port.buffer)) =
      some (⟨.quarantine 0x00A13C000107 930, .waiting 0x00A13C000107 .admin, 0, true⟩, .ready ⟨.ok, 0x20, []⟩) := by
  decide +kernel

/-- 4.8: Withhold on at 902. -/
theorem test_withholdOn : (after (exec (.withholdOn [0x35, 1])
    (smallAsks (small 902 0x25 (.quarantine 0x00A13C000107 931) none) .withhold [0x35, 1]))).map
    (fun t => (t.entry 0x25).lease) = some .withheld := by decide +kernel

/-- 4.8: WHOIS for a withheld address. -/
theorem test_whois : (after (exec (.whois 0x20 0x35)
    (smallTold (small 903 0x25 .withheld none) (.request 0x20 (.whois 0x35))))).map (fun t => t.bus.queue) =
      some [.answerWhois 0x20 0x35 (some .withheld) 0] := by decide +kernel

/-- 10.5: the record of entry 0x2A after its expiry. -/
theorem test_leaseRecord : ({ small 1100 0x1A .reserved none with lease := { (small 1100 0x1A .reserved none).lease with
      table := Vector.replicate 112 ⟨.stale 0x00B200000012 0 2 .due, .absent, 0, true⟩ } } : State).leaseRecord 0x1A =
    [0x2A, 0x03, 0x16, 0x00, 0x00, 0xB2, 0x00, 0x00, 0x00, 0x12, 0, 0, 0, 0, 0, 0x02] := by decide +kernel

/-- 8, the example of the free list, step a: twenty addresses from 0x50. -/
theorem test_freeList : (after (exec (.freeList [0])
    (smallAsks { full with lease := { full.lease with freeList := ((List.finRange 112).drop 64).take 20 } } .freeList [0]))).map
    (fun t => t.port.buffer) = some (.ready ⟨.ok, 0x13, [20, 0, 16, 0x50, 0x51, 0x52, 0x53, 0x54, 0x55, 0x56, 0x57, 0x58, 0x59,
      0x5A, 0x5B, 0x5C, 0x5D, 0x5E, 0x5F]⟩) := by decide +kernel

/-- 11.1, frame 2: the reply of Ident. -/
theorem test_ident : (after (exec (.ident []) (smallAsks State.reset .ident []))).map (fun t => t.port.buffer) =
    some (.ready ⟨.ok, 0x01, [0x41, 0x12, 0x01, 0x70, 0x08, 0x20, 0x08]⟩) := by decide

/-- 11.1, frame 3: Status while the scan runs. -/
theorem test_statusScanning : State.reset.statusRecord =
    [0, 1, 112, 0, 0, 0, 0, 0, 0, 0, 0, 0, 0, 0, 0, 0, 0, 0, 0, 0, 0, 0, 0, 0] := by decide +kernel

/-- 11.1, frame 4: Status after the scan of a store with three bindings in sector 2. -/
theorem test_statusAfterScan : (after (exec .scanEnd { State.reset with store := { State.reset.store with
      flash := (State.reset.store.flash).set 2 (programmed 0 7 true #v[.written 5 0x20 0, .written 6 0x21 0, .written 7 0x22 1,
        .blank, .blank, .blank, .blank, .blank])
      current := (Vector.replicate 4 none).set 0 (some (2, 7))
      erased := (Vector.replicate 5 true).set 2 false } })).map (fun t => t.statusRecord) =
    some [0x41, 1, 109, 0, 0, 0, 0, 3, 0, 0x60, 4, 3, 0, 0, 0, 0, 0, 0x44, 0, 0, 0, 0, 0, 0] := by decide +kernel

/-- 5.11, step a: the part loses to a JOIN in the fourth bit of its destination. -/
theorem test_arbitrationLost : (after (exec (.arbitrationLost 3)
    { full with bus := { full.bus with engine := .sending [0x14] false } })).map (fun t => t.bus.engine) =
      some (.receiving (.listening [false, false, false, false])) := by decide

/-- R145, third row: a hard reset in the erase of a failed target, and the scan that follows has the target to erase. -/
theorem test_cutTargetErase :
    ((after (exec (.hardReset false ⟨.erase, blankSector⟩) (unbinding .eraseTarget))).bind fun t =>
        (after (exec .hardResetEnd t)).map fun u =>
          (classify (t.store.flash[(1 : SectorId)]), u.store.erased[(1 : SectorId)], u.store.mode)) =
      some (.partially, false, .scanning ⟨.erasing [1], false, false⟩) := by decide +kernel

/-- R122: cut with the payload sent and the check byte not begun, the complement of the check byte and a slot follow; cut in
the check byte, and short of the length byte, no slot. -/
theorem test_restartCut : cutOf [0x11, 1, 0x24, 0, 0x35] 32 false = ⟨[0x11, 1, 0x24, 0, ~~~ crc8 [0x11, 1, 0x24, 0]], true, false⟩ ∧
    cutOf [0x11, 1, 0x24, 0, 0x35] 34 true = ⟨[0x11, 1, 0x24, 0, 0x3F], false, true⟩ ∧
    cutOf [0x11, 1, 0x24, 0, 0x35] 9 false = ⟨[0x11, 0x7F], false, false⟩ := by decide

/-- R94: the outcome of the older EVICT leaves the notice that replaced it. -/
theorem test_newerNotice : (after (exec (.evictOutcome 11) replaced)).map (fun t => ((t.entry 11).evict, t.bus.reports)) =
    some (.sending 98 .moved, []) := by decide +kernel

/-- R118, R119: FAULT stops the watch, and leaving FAULT starts it with no low time counted. -/
theorem test_watch : (after (exec .stuckBus full)).map (fun t => (t.bus.engine, t.bus.watch, t.att.latched.busFault)) =
      some (.fault, .stopped, true) ∧
    ((after (exec .stuckBus full)).bind fun t => after (exec .faultExit t)).map (fun t => (t.bus.engine, t.bus.watch)) =
      some (.idle .settling, .started 0) := by decide +kernel

/-- 7.8, frame a: a frame of three bytes does not deliver a reply of four. -/
theorem test_cutFrame : (after (exec (.hselNRise [0, 0, 0xD7] 0)
    { full with port := ⟨true, some ⟨.mode0, .reply ⟨.ok, 0, []⟩⟩, .ready ⟨.ok, 0, []⟩⟩ })).map (fun t => t.port) =
      some ⟨false, none, .ready ⟨.ok, 0, []⟩⟩ := by decide

/-- 7.8, frame d: a wrong check byte. -/
theorem test_checkError : (after (exec (.hselNRise [2, 0, 0, 0] 0)
    { full with port := ⟨true, some ⟨.mode0, .reply ⟨.ok, 0, []⟩⟩, .ready ⟨.ok, 0, []⟩⟩ })).map
    (fun t => (t.port.buffer, t.att.latched.port)) = some (.ready ⟨.checkError, 2, []⟩, true) := by decide

/-- 9.6, step a, in small: eight of ten marked entries, and MORE. -/
theorem test_scan : (after (exec (.scan []) (smallAsks { full with lease := { full.lease with
      table := Vector.ofFn fun p => ⟨.withheld, .absent, 0, decide (100 ≤ p.val ∧ p.val < 110)⟩ } } .scan []))).map
    (fun t => (t.port.buffer, t.marked)) = some (.ready ⟨.ok, 0x12, [0x88, 0x74, 6, 0x75, 6, 0x76, 6, 0x77, 6, 0x78, 6, 0x79, 6,
      0x7A, 6, 0x7B, 6]⟩, [108, 109]) := by decide +kernel

/-- 6.10: the move of T to 0x44 is accepted. -/
theorem test_bindMove : (after (exec (.bind (tagBytes 0x00A13C000031 ++ [0x44, 0, 0]))
    (smallAsks { small 0 0x10 (.live 0x00A13C000031 0 600) none with store := { State.reset.store with
        mode := .ready
        shadow := (Vector.replicate 32 none).set 0 (some ⟨0x00A13C000031, 0x10, 0⟩)
        current := (Vector.replicate 4 none).set 0 (some (0, 7))
        erased := (Vector.replicate 5 true).set 0 false } } .bind (tagBytes 0x00A13C000031 ++ [0x44, 0, 0])))).map
    (fun t => (t.entry 0x10, (t.entry 0x34).lease, t.store.erasedCount, t.store.superseded, t.port.buffer)) =
      some (⟨.reserved, .waiting 0x00A13C000031 .moved, 0, true⟩, .reserved, 3, some 0x10, .ready ⟨.ok, 0x40, [0, 1]⟩) := by
  decide +kernel

/-- R121, R146: a hard reset of a part with erased flash, and its end, lead to the state after reset. -/
theorem test_hardReset : ((after (exec (.hardReset false ⟨.program, blankSector⟩) State.reset)).bind
    fun t => after (exec .hardResetEnd t)) = some State.reset := by decide +kernel

/-- 6.10: with sectors 0 and 1 both valid for L0, sequence 8 is kept and sector 0 is to be erased. -/
theorem test_scanKeepsNewest : (after (exec .hardResetEnd { held with
      store := .afterReset ((flash.set 0 (programmed 0 7 true (Vector.replicate 8 .blank))).set 1
        (programmed 0 8 true (Vector.replicate 8 .blank))) })).map
    (fun t => (t.store.current[(0 : LogicalId)], t.store.mode)) =
      some (some (1, 8), .scanning ⟨.erasing [0], false, false⟩) := by decide +kernel

/-- An expiry at step level: the front command runs and leaves the queue (log 1). -/
theorem test_step : (after (step ((small 1100 0x1A (.live 0x00B200000012 0 1100) none).withPending [.expiry 0x1A, .busStop]))).map
    (fun t => ((t.entry 0x1A).lease.state, t.pending)) = some (.stale, [.busStop]) := by decide +kernel

end Sys2Proof.Tests
end

section
/-! SUPPORT. What a command may do to the lease engine, said once: a chain of moves, each a transition of one entry, a new
offer, or a refresh of fields that leaves every entry's state, holder and slot. The laws of the lease table, the deadlines,
the pinned addresses and the marks are kept move by move. -/

namespace Sys2Proof.Machine

open Sys2Proof.Safety

/-! ### Readings of a lease -/

theorem Lease.state_eq_reserved {l : Lease} : l.state = .reserved ↔ l = .reserved := by
  cases l <;> simp [Lease.state]

theorem Lease.isFree_iff {l : Lease} : l.isFree = true ↔ ∃ t, l = .free t := by
  cases l <;> simp [Lease.isFree, Lease.state]

theorem Lease.slot_eq_some {l : Lease} {k : SlotId} : l.slot = some k ↔ ∃ t c, l = .offered t c k := by
  cases l <;> simp [Lease.slot]

/-- The tag, the class and the slot of an OFFERED lease. -/
theorem Lease.eq_offered {l : Lease} {t : Tag} {c : ClassId} {k : SlotId} :
    l = .offered t c k ↔ l.slot = some k ∧ l.holder = some t ∧ l.cls = some c := by
  cases l <;> simp [Lease.slot, Lease.holder, Lease.cls]
  tauto

/-! ### The free list of a transition -/

/-- A transition takes the address out of the free list, and puts it back at one of the ends where it goes to FREE (R17 to
R19). -/
theorem moveInFreeList_spec {fl : List Pool} {p : Pool} {old : Lease} (new : Lease) (x : Place) (hn : fl.Nodup)
    (hp : p ∈ fl ↔ old.isFree = true) :
    ∃ kept : List Pool, kept.Nodup ∧ (∀ q, q ∈ kept ↔ q ≠ p ∧ q ∈ fl) ∧
      (new.isFree = false ∧ moveInFreeList fl p old new x = kept ∨
        new.isFree = true ∧ (moveInFreeList fl p old new x = p :: kept ∨ moveInFreeList fl p old new x = kept ++ [p])) := by
  refine ⟨if old.isFree then fl.erase p else fl, ?_, fun q => ?_, ?_⟩
  · split
    · exact hn.erase p
    · exact hn
  · split
    · exact hn.mem_erase_iff
    · exact ⟨fun h => ⟨by rintro rfl; exact absurd (hp.1 h) ‹_›, h⟩, fun h => h.2⟩
  · cases hf : new.isFree
    · exact .inl ⟨rfl, by simp [moveInFreeList, hf]⟩
    · cases x
      · exact .inr ⟨rfl, .inl (by simp [moveInFreeList, hf])⟩
      · exact .inr ⟨rfl, .inr (by simp [moveInFreeList, hf])⟩

theorem mem_moveInFreeList {fl : List Pool} {p q : Pool} {old new : Lease} {x : Place} (hn : fl.Nodup)
    (hp : p ∈ fl ↔ old.isFree = true) :
    q ∈ moveInFreeList fl p old new x ↔ if q = p then new.isFree = true else q ∈ fl := by
  obtain ⟨kept, -, hk, ⟨hf, h⟩ | ⟨hf, h | h⟩⟩ := moveInFreeList_spec new x hn hp <;>
    by_cases hq : q = p <;> simp [h, hk, hf, hq]

theorem nodup_moveInFreeList {fl : List Pool} {p : Pool} {old new : Lease} {x : Place} (hn : fl.Nodup)
    (hp : p ∈ fl ↔ old.isFree = true) : (moveInFreeList fl p old new x).Nodup := by
  obtain ⟨kept, hkn, hk, ⟨-, h⟩ | ⟨-, h | h⟩⟩ := moveInFreeList_spec new x hn hp
  · rw [h]
    exact hkn
  · rw [h]
    exact List.nodup_cons.2 ⟨by simp [hk], hkn⟩
  · rw [h]
    exact List.Nodup.append hkn (List.nodup_singleton p) (by simp [hk])

/-! ### Moves -/

/-- What a command keeps of an entry, whatever becomes of its lease (R7, R8, R11, R95). -/
structure Kept (c : Instr) (p : Pool) (e e' : Entry) : Prop where
  mark : (∀ ps, c ≠ .scan ps) → e.mark = true → e'.mark = true
  evict : c ≠ .evictOutcome p → e.evict ≠ .absent → e'.evict ≠ .absent
  conflicts : c ≠ .snoopReport p → (∀ ps, c ≠ .lookupAddressClear ps) → e'.conflicts = e.conflicts

/-- A deadline is set now, as a term or a period of at most 16 bits (R49). -/
def State.SetsNow (s : State) (d : LeaseTime) : Prop := ∃ n < 65536, d = s.nowPlus n

/-- What an offer slot pairs with an entry (R34). -/
def OfferSlot.pairing (o : OfferSlot) : Tag × Pool × ClassId := (o.tag, o.addr, o.cls)

/-- Two leases have the same state, the same holder with the same class, and the same slot. -/
structure SameStanding (l l' : Lease) : Prop where
  state : l'.state = l.state
  holder : l'.holder = l.holder
  cls : l'.cls = l.cls
  slot : l'.slot = l.slot

/-- A refresh: every entry keeps its state, its holder and its slot, and what the command keeps of it; no other block that
the laws of the lease table read has changed. -/
structure Refreshes (c : Instr) (s t : State) : Prop where
  power : t.power = s.power
  port : t.port = s.port
  store : t.store = s.store
  ready : t.lease.ready = s.lease.ready
  freeList : t.lease.freeList = s.lease.freeList
  slots : ∀ k : SlotId, (t.lease.slots[k]).map OfferSlot.pairing = (s.lease.slots[k]).map OfferSlot.pairing
  clock : c ≠ .leaseClockTick → t.lease.clock = s.lease.clock
  window : ∀ w, t.lease.window = some w → s.lease.window = some w ∨ s.lease.clock.toNat ≤ w.toNat
  standing : ∀ p, SameStanding (s.leaseOf p) (t.leaseOf p)
  deadline : ∀ p d, (t.leaseOf p).deadline = some d → (s.leaseOf p).deadline = some d ∨ s.SetsNow d
  kept : ∀ p, Kept c p (s.entry p) (t.entry p)

/-- A lease fits the pinned flag of its address (R13, R134): RESERVED only where pinned, and where pinned RESERVED or held
by the tag of the binding. -/
def PinFits (s : State) (p : Pool) (l : Lease) : Prop :=
  l = .reserved ∧ s.store.pinned p = true ∨
    l ≠ .reserved ∧ s.store.superseded ≠ some p ∧
      ∀ (k : BindSlot) (b : Binding), s.store.shadow[k] = some b → b.addr = p → l.holder = some b.tag

/-- The laws that a transition may take for granted. -/
def Sound (s : State) : Prop := TableLaws s ∧ BindingLaws s ∧ s.lease.ready = true

/-- The tag holds no entry but this one. -/
def HoldsAtMost (s : State) (t : Tag) (p : Pool) : Prop := ∀ q, (s.leaseOf q).holder = some t → q = p

/-- An entry may go to a lease that is not OFFERED. -/
structure Admits (s : State) (p : Pool) (l : Lease) : Prop where
  slot : l.slot = none
  holder : TableLaws s → ∀ t, l.holder = some t → HoldsAtMost s t p
  deadline : ∀ d, l.deadline = some d → s.SetsNow d
  pin : Sound s → PinFits s p l

/-- An address may be offered to a tag in a slot (R24, R32). -/
structure Offerable (s : State) (k : SlotId) (t : Tag) (p : Pool) : Prop where
  empty : s.lease.slots[k] = none
  holder : TableLaws s → HoldsAtMost s t p
  pin : Sound s → ∀ c, PinFits s p (.offered t c k)

/-- One move of the lease engine. -/
inductive Move (c : Instr) (s : State) : State → Prop
  | refresh {t : State} : Refreshes c s t → Move c s t
  | change {p : Pool} {l : Lease} (x : Place) : Admits s p l → Move c s (s.changeLease p l x)
  | offer {k : SlotId} {o : OfferSlot} : Offerable s k o.tag o.addr →
      Move c s ((s.changeLease o.addr (.offered o.tag o.cls k) .tail).putSlot k (some o))

/-- A chain of moves. -/
abbrev Moves (c : Instr) : State → State → Prop := Relation.ReflTransGen (Move c)

theorem Moves.refreshes {c : Instr} {s t : State} (h : Refreshes c s t) : Moves c s t := .single (.refresh h)

theorem Moves.changes (c : Instr) {s : State} {p : Pool} {l : Lease} (x : Place) (h : Admits s p l) :
    Moves c s (s.changeLease p l x) := .single (.change x h)

/-! ### What a move leaves -/

@[simp] theorem State.entry_putSlot (s : State) (k : SlotId) (o : Option OfferSlot) (p : Pool) :
    (s.putSlot k o).entry p = s.entry p := rfl

@[simp] theorem State.leaseOf_putSlot (s : State) (k : SlotId) (o : Option OfferSlot) (p : Pool) :
    (s.putSlot k o).leaseOf p = s.leaseOf p := rfl

theorem State.leaseOf_changeLease (s : State) (p q : Pool) (l : Lease) (x : Place) :
    (s.changeLease p l x).leaseOf q = if q = p then l else s.leaseOf q := by
  by_cases h : q = p
  · simp [h]
  · rw [if_neg h, State.leaseOf_changeLease_ne _ _ _ (Ne.symm h)]

theorem State.entry_changeLease (s : State) (p q : Pool) (l : Lease) (x : Place) :
    (s.changeLease p l x).entry q = if q = p then { s.entry p with lease := l, mark := true } else s.entry q := by
  by_cases h : q = p
  · simp [h]
  · rw [if_neg h, State.entry_changeLease_ne _ _ _ (Ne.symm h)]

theorem State.nowPlus_congr {s t : State} (h : t.lease.clock = s.lease.clock) (n : Nat) : t.nowPlus n = s.nowPlus n := by
  simp [State.nowPlus, h]

theorem Kept.refl (c : Instr) (p : Pool) (e : Entry) : Kept c p e e := ⟨fun _ h => h, fun _ h => h, fun _ _ => rfl⟩

theorem Kept.trans {c : Instr} {p : Pool} {e f g : Entry} (h : Kept c p e f) (h' : Kept c p f g) : Kept c p e g :=
  ⟨fun hc hm => h'.mark hc (h.mark hc hm), fun hc hm => h'.evict hc (h.evict hc hm),
    fun hc hl => (h'.conflicts hc hl).trans (h.conflicts hc hl)⟩

/-- A transition keeps the notice and the count of its entry, and marks it (R7, R8, R10). -/
theorem kept_changeLease (c : Instr) (s : State) (p q : Pool) (l : Lease) (x : Place) :
    Kept c q (s.entry q) ((s.changeLease p l x).entry q) := by
  rw [State.entry_changeLease]
  split
  · subst q
    exact ⟨fun _ _ => rfl, fun _ h => h, fun _ _ => rfl⟩
  · exact Kept.refl c q _

theorem Move.kept {c : Instr} {s t : State} (h : Move c s t) (p : Pool) : Kept c p (s.entry p) (t.entry p) := by
  cases h with
  | refresh h => exact h.kept p
  | change x h => exact kept_changeLease c s _ p _ x
  | offer h => exact kept_changeLease c s _ p _ .tail

theorem Moves.kept {c : Instr} {s t : State} (h : Moves c s t) (p : Pool) : Kept c p (s.entry p) (t.entry p) := by
  induction h with
  | refl => exact Kept.refl c p _
  | tail _ h ih => exact ih.trans (h.kept p)

/-- The blocks and fields that no move touches. -/
structure SameFrame (s t : State) : Prop where
  power : t.power = s.power
  port : t.port = s.port
  store : t.store = s.store
  ready : t.lease.ready = s.lease.ready

theorem Move.frame {c : Instr} {s t : State} (h : Move c s t) : SameFrame s t := by
  cases h with
  | refresh h => exact ⟨h.power, h.port, h.store, h.ready⟩
  | change x h => exact ⟨rfl, rfl, rfl, rfl⟩
  | offer h => exact ⟨rfl, rfl, rfl, rfl⟩

theorem Moves.frame {c : Instr} {s t : State} (h : Moves c s t) : SameFrame s t := by
  induction h with
  | refl => exact ⟨rfl, rfl, rfl, rfl⟩
  | tail _ h ih =>
    exact ⟨h.frame.power.trans ih.power, h.frame.port.trans ih.port, h.frame.store.trans ih.store,
      h.frame.ready.trans ih.ready⟩

theorem Move.clock {c : Instr} {s t : State} (hc : c ≠ .leaseClockTick) (h : Move c s t) :
    t.lease.clock = s.lease.clock := by
  cases h with
  | refresh h => exact h.clock hc
  | change x h => rfl
  | offer h => rfl

theorem Moves.clock {c : Instr} {s t : State} (hc : c ≠ .leaseClockTick) (h : Moves c s t) :
    t.lease.clock = s.lease.clock := by
  induction h with
  | refl => rfl
  | tail _ h ih => exact (h.clock hc).trans ih

/-- A change of an entry's state or holder is marked (R10). -/
def Marked (s t : State) (p : Pool) : Prop :=
  (t.leaseOf p).state = (s.leaseOf p).state ∧ (t.leaseOf p).holder = (s.leaseOf p).holder ∨ (t.entry p).mark = true

theorem marked_changeLease (s : State) (p q : Pool) (l : Lease) (x : Place) : Marked s (s.changeLease p l x) q := by
  unfold Marked
  rw [State.entry_changeLease, State.leaseOf_changeLease]
  split
  · exact .inr rfl
  · exact .inl ⟨rfl, rfl⟩

theorem Move.marked {c : Instr} {s t : State} (h : Move c s t) (p : Pool) : Marked s t p := by
  cases h with
  | refresh h => exact .inl ⟨(h.standing p).state, (h.standing p).holder⟩
  | change x h => exact marked_changeLease s _ p _ x
  | offer h => exact marked_changeLease s _ p _ .tail

theorem Moves.marked {c : Instr} (hc : ∀ ps, c ≠ .scan ps) {s t : State} (h : Moves c s t) (p : Pool) : Marked s t p := by
  induction h with
  | refl => exact .inl ⟨rfl, rfl⟩
  | tail _ h ih =>
    rcases h.marked p with ⟨hs, hh⟩ | hm
    · rcases ih with ⟨is, ih⟩ | im
      · exact .inl ⟨hs.trans is, hh.trans ih⟩
      · exact .inr ((h.kept p).mark hc im)
    · exact .inr hm

/-! ### The laws of the lease table, move by move -/

theorem freeListLaw_changeLease {s : State} (hs : FreeListLaw s) (p : Pool) (l : Lease) (x : Place) :
    FreeListLaw (s.changeLease p l x) := by
  obtain ⟨hn, hm⟩ := hs
  refine ⟨nodup_moveInFreeList hn (hm p), fun q => ?_⟩
  rw [State.changeLease_lease_freeList, mem_moveInFreeList hn (hm p), State.leaseOf_changeLease]
  split
  · rfl
  · exact hm q

/-- The slots of a transition: the one that the entry named is empty, every other is as it was. -/
theorem getElem_emptiedSlots (slots : Vector (Option OfferSlot) 8) (old : Lease) (k : SlotId) :
    (emptiedSlots slots old)[k] = if old.slot = some k then none else slots[k] := by
  unfold emptiedSlots
  split
  · rename_i j hj
    by_cases h : j = k
    · simp [hj, h]
    · rw [if_neg (by simpa [hj] using h)]
      exact Vector.getElem_set_ne _ _ (Fin.val_ne_of_ne h)
  · simp_all

theorem offerLaw_changeLease {s : State} (hs : OfferLaw s) (p : Pool) {l : Lease} (x : Place) (hl : l.slot = none) :
    OfferLaw (s.changeLease p l x) := by
  obtain ⟨h1, h2⟩ := hs
  refine ⟨fun q t c k hq => ?_, fun k o hk => ?_⟩
  · rw [State.leaseOf_changeLease] at hq
    split at hq
    · simp [hq, Lease.slot] at hl
    · rename_i hqp
      obtain ⟨o, ho, ha, ht, hc⟩ := h1 q t c k hq
      refine ⟨o, ?_, ha, ht, hc⟩
      rw [State.changeLease_lease_slots, getElem_emptiedSlots, if_neg, ho]
      intro hslot
      obtain ⟨t', c', hp⟩ := Lease.slot_eq_some.1 hslot
      obtain ⟨o', ho', ha', -⟩ := h1 p t' c' k hp
      rw [ho] at ho'
      cases ho'
      exact hqp (ha.symm.trans ha')
  · rw [State.changeLease_lease_slots, getElem_emptiedSlots] at hk
    split at hk
    · cases hk
    · rename_i hslot
      have ho := h2 k o hk
      rw [State.leaseOf_changeLease, if_neg, ho]
      rintro rfl
      exact hslot (by rw [ho]; rfl)

theorem oneHolderLaw_changeLease {s : State} (hs : OneHolderLaw s) (p : Pool) {l : Lease} (x : Place)
    (hl : ∀ t, l.holder = some t → HoldsAtMost s t p) : OneHolderLaw (s.changeLease p l x) := by
  intro q r t hq hr
  rw [State.leaseOf_changeLease] at hq hr
  split at hq <;> split at hr
  · simp_all
  · subst q
    exact (hl t hq r hr).symm
  · subst r
    exact hl t hr q hq
  · exact hs q r t hq hr

/-- The new offer and its slot name one another, and no other entry names that slot (R32, R34). -/
theorem offerLaw_offer {s : State} (hs : OfferLaw s) {k : SlotId} {o : OfferSlot} (hk : s.lease.slots[k] = none) :
    OfferLaw ((s.changeLease o.addr (.offered o.tag o.cls k) .tail).putSlot k (some o)) := by
  obtain ⟨h1, h2⟩ := hs
  have hslot : ∀ j : SlotId, ((s.changeLease o.addr (.offered o.tag o.cls k) .tail).putSlot k (some o)).lease.slots[j] =
      if j = k then some o else (emptiedSlots s.lease.slots (s.leaseOf o.addr))[j] := by
    intro j
    by_cases h : j = k
    · simp [h]
    · rw [if_neg h]
      exact Vector.getElem_set_ne k.isLt j.isLt (Fin.val_ne_of_ne (Ne.symm h))
  refine ⟨fun q t c j hq => ?_, fun j o' hj => ?_⟩
  · rw [State.leaseOf_putSlot, State.leaseOf_changeLease] at hq
    rw [hslot]
    split at hq
    · cases hq
      exact ⟨o, by simp, by simp_all, rfl, rfl⟩
    · rename_i hqp
      obtain ⟨o', ho, ha, ht, hc⟩ := h1 q t c j hq
      refine ⟨o', ?_, ha, ht, hc⟩
      rw [if_neg (by rintro rfl; simp [hk] at ho), getElem_emptiedSlots, if_neg, ho]
      intro hs'
      obtain ⟨t', c', hp⟩ := Lease.slot_eq_some.1 hs'
      obtain ⟨o'', ho'', ha'', -⟩ := h1 _ t' c' j hp
      rw [ho] at ho''
      cases ho''
      exact hqp (ha.symm.trans ha'')
  · rw [hslot] at hj
    rw [State.leaseOf_putSlot, State.leaseOf_changeLease]
    split at hj
    · cases hj
      simp_all
    · rw [getElem_emptiedSlots] at hj
      split at hj
      · cases hj
      · rename_i hs'
        have ho := h2 j o' hj
        rw [if_neg, ho]
        intro e
        exact hs' (by rw [← e, ho]; rfl)

theorem Refreshes.tableLaws {c : Instr} {s t : State} (h : Refreshes c s t) (hs : TableLaws s) : TableLaws t := by
  obtain ⟨⟨hn, hm⟩, ⟨h1, h2⟩, h3⟩ := hs
  have hoff : ∀ p u d k, t.leaseOf p = .offered u d k ↔ s.leaseOf p = .offered u d k := by
    intro p u d k
    rw [Lease.eq_offered, Lease.eq_offered, (h.standing p).slot, (h.standing p).holder, (h.standing p).cls]
  have hpair : ∀ (k : SlotId) (o : OfferSlot), t.lease.slots[k] = some o →
      ∃ o', s.lease.slots[k] = some o' ∧ o'.pairing = o.pairing := by
    intro k o ho
    have hk := h.slots k
    rw [ho, Option.map_some, eq_comm, Option.map_eq_some_iff] at hk
    exact hk
  refine ⟨⟨h.freeList ▸ hn, fun p => ?_⟩, ⟨fun p u d k hp => ?_, fun k o ho => ?_⟩, fun p q u hp hq => ?_⟩
  · rw [h.freeList, hm p, Lease.isFree, Lease.isFree, (h.standing p).state]
  · obtain ⟨o, ho, ha, ht, hd⟩ := h1 p u d k ((hoff p u d k).1 hp)
    have hk := h.slots k
    rw [ho, Option.map_some, Option.map_eq_some_iff] at hk
    obtain ⟨o', ho', he⟩ := hk
    simp only [OfferSlot.pairing, Prod.mk.injEq] at he
    obtain ⟨et, ea, ec⟩ := he
    exact ⟨o', ho', ea.trans ha, et.trans ht, ec.trans hd⟩
  · obtain ⟨o', ho', he⟩ := hpair k o ho
    simp only [OfferSlot.pairing, Prod.mk.injEq] at he
    obtain ⟨et, ea, ec⟩ := he
    rw [hoff, ← et, ← ea, ← ec]
    exact h2 k o' ho'
  · rw [(h.standing p).holder] at hp
    rw [(h.standing q).holder] at hq
    exact h3 p q u hp hq

theorem Move.tableLaws {c : Instr} {s t : State} (h : Move c s t) (hs : TableLaws s) : TableLaws t := by
  obtain ⟨hfree, hoffer, hone⟩ := id hs
  cases h with
  | refresh h => exact h.tableLaws hs
  | change x h =>
    exact ⟨freeListLaw_changeLease hfree _ _ x, offerLaw_changeLease hoffer _ x h.slot,
      oneHolderLaw_changeLease hone _ x (h.holder hs)⟩
  | @offer k o h =>
    have hholder : ∀ u, (Lease.offered o.tag o.cls k).holder = some u → HoldsAtMost s u o.addr := by
      rintro u ⟨⟩
      exact h.holder hs
    exact ⟨freeListLaw_changeLease hfree o.addr (.offered o.tag o.cls k) .tail, offerLaw_offer hoffer h.empty,
      oneHolderLaw_changeLease hone o.addr .tail hholder⟩

/-- A chain of moves keeps the laws of the lease table (R3, R17, R34). -/
theorem Moves.tableLaws {c : Instr} {s t : State} (h : Moves c s t) (hs : TableLaws s) : TableLaws t := by
  induction h with
  | refl => exact hs
  | tail _ h ih => exact h.tableLaws ih

/-! ### Deadlines, move by move -/

/-- Below its limit by more than the longest term, the clock counts on in 32 bits (R49; log 5). -/
theorem State.nowPlus_toNat {s : State} {n : Nat} (hc : s.lease.clock.toNat + 65536 < 2 ^ 32) (hn : n < 65536) :
    (s.nowPlus n).toNat = s.lease.clock.toNat + n := by
  have hlt : s.lease.clock.toNat + n < 2 ^ 32 := by omega
  simp only [State.nowPlus, leaseTime, if_pos hlt, BitVec.toNat_ofNat]
  exact Nat.mod_eq_of_lt hlt

theorem State.SetsNow.le {s : State} {d : LeaseTime} (hc : s.lease.clock.toNat + 65536 < 2 ^ 32) (h : s.SetsNow d) :
    s.lease.clock.toNat ≤ d.toNat := by
  obtain ⟨n, hn, rfl⟩ := h
  rw [State.nowPlus_toNat hc hn]
  omega

theorem deadlineLaw_changeLease {s : State} (hs : DeadlineLaw s) (hc : s.lease.clock.toNat + 65536 < 2 ^ 32) (p : Pool)
    {l : Lease} (x : Place) (hl : ∀ d, l.deadline = some d → s.SetsNow d) : DeadlineLaw (s.changeLease p l x) := by
  refine ⟨fun q d hd => ?_, hs.2⟩
  rw [State.leaseOf_changeLease] at hd
  split at hd
  · exact (hl d hd).le hc
  · exact hs.1 q d hd

theorem Move.deadlineLaw {c : Instr} (hc : c ≠ .leaseClockTick) {s t : State} (h : Move c s t)
    (hlim : s.lease.clock.toNat + 65536 < 2 ^ 32) (hs : DeadlineLaw s) : DeadlineLaw t := by
  cases h with
  | refresh h =>
    refine ⟨fun p d hd => ?_, fun w hw => ?_⟩
    · rw [h.clock hc]
      exact (h.deadline p d hd).elim (hs.1 p d) (·.le hlim)
    · rw [h.clock hc]
      exact (h.window w hw).elim (hs.2 w) id
  | change x h => exact deadlineLaw_changeLease hs hlim _ x h.deadline
  | offer h => exact deadlineLaw_changeLease hs hlim _ .tail nofun

/-- A chain of moves sets no deadline behind the clock (R5, R50). -/
theorem Moves.deadlineLaw {c : Instr} {s t : State} (h : Moves c s t) (hc : c ≠ .leaseClockTick)
    (hlim : s.lease.clock.toNat + 65536 < 2 ^ 32) (hs : DeadlineLaw s) : DeadlineLaw t := by
  induction h with
  | refl => exact hs
  | tail h' h ih => exact h.deadlineLaw hc (by rwa [Moves.clock hc h']) ih

/-! ### Pinned addresses, move by move -/

/-- An address is pinned by a binding in the shadow, or as the superseded address of a move in flight (R12). -/
theorem Store.pinned_iff {st : Store} {p : Pool} :
    st.pinned p = true ↔ (∃ (k : BindSlot) (b : Binding), st.shadow[k] = some b ∧ b.addr = p) ∨ st.superseded = some p := by
  have hat : (st.bindingAt p).isSome = true ↔ ∃ (k : BindSlot) (b : Binding), st.shadow[k] = some b ∧ b.addr = p := by
    unfold Store.bindingAt
    rw [List.find?_isSome]
    constructor
    · rintro ⟨b, hb, hp⟩
      rw [List.reduceOption_mem_iff, Vector.mem_toList_iff] at hb
      obtain ⟨i, hi, he⟩ := Vector.mem_iff_getElem.1 hb
      exact ⟨⟨i, hi⟩, b, he, by simpa using hp⟩
    · rintro ⟨k, b, hk, hp⟩
      refine ⟨b, ?_, by simpa using hp⟩
      rw [List.reduceOption_mem_iff, Vector.mem_toList_iff]
      exact hk ▸ Vector.getElem_mem k.isLt
  rw [Store.pinned, Bool.or_eq_true, hat, beq_iff_eq]

theorem Store.not_pinned_iff {st : Store} {p : Pool} : st.pinned p = false ↔
    (∀ (k : BindSlot) (b : Binding), st.shadow[k] = some b → b.addr ≠ p) ∧ st.superseded ≠ some p := by
  rw [← Bool.not_eq_true, Store.pinned_iff]
  push Not
  rfl

/-- The binding that names an address stands in the shadow. -/
theorem Store.bindingAt_eq_some {st : Store} {p : Pool} {b : Binding} (h : st.bindingAt p = some b) :
    b.addr = p ∧ ∃ k : BindSlot, st.shadow[k] = some b := by
  have hp := List.find?_some h
  have hb := List.mem_of_find?_eq_some h
  rw [List.reduceOption_mem_iff, Vector.mem_toList_iff] at hb
  obtain ⟨i, hi, he⟩ := Vector.mem_iff_getElem.1 hb
  exact ⟨by simpa using hp, ⟨i, hi⟩, he⟩

/-- An address that is not pinned takes any lease but RESERVED. -/
theorem pinFits_of_not_pinned {s : State} {p : Pool} {l : Lease} (h : s.store.pinned p = false) (hl : l ≠ .reserved) :
    PinFits s p l := by
  obtain ⟨hb, hsup⟩ := Store.not_pinned_iff.1 h
  exact .inr ⟨hl, hsup, fun k b hk hp => absurd hp (hb k b hk)⟩

theorem pinnedLaw_changeLease {s : State} (hs : PinnedLaw s) {p : Pool} {l : Lease} (x : Place)
    (hl : s.lease.ready = true → PinFits s p l) : PinnedLaw (s.changeLease p l x) := by
  intro hr
  obtain ⟨h1, h2, h3⟩ := hs hr
  refine ⟨fun k b hk => ?_, fun q hq => ?_, fun q hq => ?_⟩
  · rw [State.leaseOf_changeLease]
    split
    · rcases hl hr with ⟨e, -⟩ | ⟨-, -, hb⟩
      · exact .inl e
      · exact .inr (hb k b hk ‹_›)
    · exact h1 k b hk
  · rw [State.leaseOf_changeLease]
    split
    · subst q
      rcases hl hr with ⟨e, -⟩ | ⟨-, hsup, -⟩
      · exact e
      · exact absurd hq hsup
    · exact h2 q hq
  · rw [State.leaseOf_changeLease] at hq
    split at hq
    · subst q
      rcases hl hr with ⟨-, hp⟩ | ⟨hne, -, -⟩
      · exact hp
      · exact absurd hq hne
    · exact h3 q hq

theorem Refreshes.pinnedLaw {c : Instr} {s t : State} (h : Refreshes c s t) (hs : PinnedLaw s) : PinnedLaw t := by
  have hres : ∀ p, t.leaseOf p = .reserved ↔ s.leaseOf p = .reserved := fun p => by
    rw [← Lease.state_eq_reserved, ← Lease.state_eq_reserved, (h.standing p).state]
  intro hr
  obtain ⟨h1, h2, h3⟩ := hs (h.ready ▸ hr)
  rw [h.store]
  refine ⟨fun k b hk => ?_, fun p hp => (hres p).2 (h2 p hp), fun p hp => h3 p ((hres p).1 hp)⟩
  rw [hres, (h.standing b.addr).holder]
  exact h1 k b hk

theorem Move.bindingLaws {c : Instr} {s t : State} (h : Move c s t) (ht : TableLaws s) (hs : BindingLaws s) :
    BindingLaws t := by
  obtain ⟨hshadow, hchange, hpin⟩ := id hs
  refine ⟨h.frame.store ▸ hshadow, h.frame.store ▸ hchange, ?_⟩
  cases h with
  | refresh h => exact h.pinnedLaw hpin
  | change x h => exact pinnedLaw_changeLease hpin x fun hr => h.pin ⟨ht, hs, hr⟩
  | offer h => exact pinnedLaw_changeLease hpin .tail fun hr => h.pin ⟨ht, hs, hr⟩ _

/-- A chain of moves keeps the laws that tie the lease table to the shadow (R12, R13). -/
theorem Moves.bindingLaws {c : Instr} {s t : State} (h : Moves c s t) (ht : TableLaws s) (hs : BindingLaws s) :
    BindingLaws t := by
  induction h with
  | refl => exact hs
  | tail h' h ih => exact h.bindingLaws (Moves.tableLaws h' ht) ih

end Sys2Proof.Machine
end

section
/-! SUPPORT. The shared operations of the lease engine as moves, one lemma for each. -/

namespace Sys2Proof.Machine

open Sys2Proof.Safety

/-! ### Nothing but the bus engine and the flags -/

/-- Nothing but the bus engine, the attention unit and the queue of commands differs. -/
structure Beside (s t : State) : Prop where
  power : t.power = s.power
  lease : t.lease = s.lease
  store : t.store = s.store
  port : t.port = s.port

theorem Beside.refl (s : State) : Beside s s := ⟨rfl, rfl, rfl, rfl⟩

theorem Beside.trans {s t u : State} (h : Beside s t) (h' : Beside t u) : Beside s u :=
  ⟨h'.power.trans h.power, h'.lease.trans h.lease, h'.store.trans h.store, h'.port.trans h.port⟩

theorem beside_withBus (s : State) (b : BusEngine) : Beside s (s.withBus b) := ⟨rfl, rfl, rfl, rfl⟩
theorem beside_withAtt (s : State) (a : Attention) : Beside s (s.withAtt a) := ⟨rfl, rfl, rfl, rfl⟩
theorem beside_enqueue (s : State) (m : Message) : Beside s (s.enqueue m) := ⟨rfl, rfl, rfl, rfl⟩
theorem beside_report (s : State) (r : Report) : Beside s (s.report r) := ⟨rfl, rfl, rfl, rfl⟩
theorem beside_raise (s : State) (k : Cause) : Beside s (s.raise k) := ⟨rfl, rfl, rfl, rfl⟩
theorem beside_setEngine (s : State) (e : Engine) : Beside s (s.setEngine e) := ⟨rfl, rfl, rfl, rfl⟩
theorem beside_enterFault (s : State) : Beside s s.enterFault := ⟨rfl, rfl, rfl, rfl⟩
theorem beside_taken (s : State) (rest : List Report) : Beside s (taken s rest) := ⟨rfl, rfl, rfl, rfl⟩

theorem beside_refuseRevoked (s : State) (t : Tag) : Beside s (s.refuseRevoked t) := by
  unfold State.refuseRevoked
  split
  · exact beside_enqueue s _
  · exact Beside.refl s

theorem Beside.refreshes (c : Instr) {s t : State} (h : Beside s t) : Refreshes c s t := by
  have he : ∀ p, t.entry p = s.entry p := fun p => by simp [State.entry, h.lease]
  exact {
    power := h.power
    port := h.port
    store := h.store
    ready := by rw [h.lease]
    freeList := by rw [h.lease]
    slots := fun k => by rw [h.lease]
    clock := fun _ => by rw [h.lease]
    window := fun w hw => .inl (h.lease ▸ hw)
    standing := fun p => by simpa only [State.leaseOf, he] using ⟨rfl, rfl, rfl, rfl⟩
    deadline := fun p d hd => .inl (by simpa only [State.leaseOf, he] using hd)
    kept := fun p => he p ▸ Kept.refl c p _ }

theorem Beside.moves (c : Instr) {s t : State} (h : Beside s t) : Moves c s t := .refreshes (h.refreshes c)

/-! ### Refreshes -/

theorem SameStanding.refl (l : Lease) : SameStanding l l := ⟨rfl, rfl, rfl, rfl⟩

theorem State.entry_setEntry (s : State) (p q : Pool) (e : Entry) :
    (s.setEntry p e).entry q = if q = p then e else s.entry q := by
  by_cases h : q = p
  · simp [h]
  · rw [if_neg h, State.entry_setEntry_ne _ _ (Ne.symm h)]

theorem State.leaseOf_setEntry (s : State) (p q : Pool) (e : Entry) :
    (s.setEntry p e).leaseOf q = if q = p then e.lease else s.leaseOf q := by
  unfold State.leaseOf
  rw [State.entry_setEntry]
  split <;> rfl

/-- An entry written anew with the same standing. -/
theorem moves_setEntry {c : Instr} {s : State} {p : Pool} {e : Entry} (hl : SameStanding (s.leaseOf p) e.lease)
    (hd : ∀ d, e.lease.deadline = some d → (s.leaseOf p).deadline = some d ∨ s.SetsNow d)
    (hk : Kept c p (s.entry p) e) : Moves c s (s.setEntry p e) := by
  refine .refreshes {
    power := rfl, port := rfl, store := rfl, ready := rfl, freeList := rfl
    slots := fun _ => rfl
    clock := fun _ => rfl
    window := fun _ => .inl
    standing := fun q => ?_
    deadline := fun q d h => ?_
    kept := fun q => ?_ }
  · rw [State.leaseOf_setEntry]
    split
    · subst q
      exact hl
    · exact .refl _
  · rw [State.leaseOf_setEntry] at h
    split at h
    · subst q
      exact hd d h
    · exact .inl h
  · rw [State.entry_setEntry]
    split
    · subst q
      exact hk
    · exact Kept.refl c q _

/-- Other fields of a lease with the same standing. -/
theorem moves_setLease (c : Instr) {s : State} {p : Pool} {l : Lease} (hl : SameStanding (s.leaseOf p) l)
    (hd : ∀ d, l.deadline = some d → (s.leaseOf p).deadline = some d ∨ s.SetsNow d) : Moves c s (s.setLease p l) :=
  moves_setEntry hl hd ⟨fun _ h => h, fun _ h => h, fun _ _ => rfl⟩

theorem moves_markEntry (c : Instr) (s : State) (p : Pool) : Moves c s (s.markEntry p) :=
  moves_setEntry (.refl _) (fun _ => .inl) ⟨fun _ _ => rfl, fun _ h => h, fun _ _ => rfl⟩

theorem moves_setEvict (c : Instr) (s : State) (p : Pool) (t : Tag) (r : EvictReason) : Moves c s (s.setEvict p t r) :=
  moves_setEntry (.refl _) (fun _ => .inl) ⟨fun _ h => h, fun _ _ => nofun, fun _ _ => rfl⟩

/-- Settings, the window and the table, where every entry keeps its standing. -/
theorem moves_withLease {c : Instr} {s : State} (l : LeaseEngine) (hr : l.ready = s.lease.ready)
    (ht : l.table = s.lease.table) (hf : l.freeList = s.lease.freeList) (hs : l.slots = s.lease.slots)
    (hc : c ≠ .leaseClockTick → l.clock = s.lease.clock)
    (hw : ∀ w, l.window = some w → s.lease.window = some w ∨ s.lease.clock.toNat ≤ w.toNat) : Moves c s (s.withLease l) := by
  have he : ∀ p, (s.withLease l).entry p = s.entry p := fun p => by simp [State.entry, ht]
  exact .refreshes {
    power := rfl, port := rfl, store := rfl, ready := hr, freeList := hf
    slots := fun k => by rw [State.withLease_lease, hs]
    clock := hc
    window := hw
    standing := fun p => by simpa only [State.leaseOf, he] using ⟨rfl, rfl, rfl, rfl⟩
    deadline := fun p d hd => .inl (by simpa only [State.leaseOf, he] using hd)
    kept := fun p => he p ▸ Kept.refl c p _ }

/-- A slot with another phase. -/
theorem moves_putSlot (c : Instr) {s : State} {k : SlotId} {o o' : OfferSlot} (ho : s.lease.slots[k] = some o)
    (h : o'.pairing = o.pairing) : Moves c s (s.putSlot k (some o')) := by
  refine .refreshes {
    power := rfl, port := rfl, store := rfl, ready := rfl, freeList := rfl
    slots := fun j => ?_
    clock := fun _ => rfl
    window := fun _ => .inl
    standing := fun _ => .refl _
    deadline := fun _ _ => .inl
    kept := fun p => Kept.refl c p _ }
  by_cases hj : j = k
  · subst j
    simp [ho, h]
  · rw [State.putSlot_lease_slots]
    exact congrArg _ (Vector.getElem_set_ne k.isLt j.isLt (Fin.val_ne_of_ne (Ne.symm hj)))

/-! ### Transitions -/

theorem State.setsNow_half (s : State) (h : Half) : s.SetsNow (s.nowPlus h.toNat) := ⟨h.toNat, h.isLt, rfl⟩

theorem moves_reserved (c : Instr) {s : State} {p : Pool} (x : Place) (h : s.store.pinned p = true) :
    Moves c s (s.changeLease p .reserved x) :=
  .changes c x ⟨rfl, nofun, nofun, fun _ => .inl ⟨rfl, h⟩⟩

/-- Out of every other state into one without a holder, where the address is not pinned. -/
theorem moves_unheld (c : Instr) {s : State} {p : Pool} {l : Lease} (x : Place) (h : s.store.pinned p = false)
    (hl : l ≠ .reserved) (hs : l.slot = none) (hh : l.holder = none) (hd : ∀ d, l.deadline = some d → s.SetsNow d) :
    Moves c s (s.changeLease p l x) :=
  .changes c x ⟨hs, fun _ t ht => by simp [hh] at ht, hd, fun _ => pinFits_of_not_pinned h hl⟩

theorem moves_toFree (c : Instr) (s : State) (p : Pool) (last : Option Tag) (x : Place) : Moves c s (s.toFree p last x) := by
  unfold State.toFree
  split
  · exact moves_reserved c _ ‹_›
  · exact moves_unheld c _ (eq_false_of_ne_true ‹_›) nofun rfl rfl nofun

theorem moves_withdraw (c : Instr) (s : State) (p : Pool) (t : Tag) : Moves c s (s.withdraw p t) := by
  unfold State.withdraw
  split
  · exact moves_reserved c _ ‹_›
  · rename_i hp
    rw [Bool.not_eq_true] at hp
    split
    · exact moves_unheld c _ hp nofun rfl rfl nofun
    · refine moves_unheld c _ hp nofun rfl rfl ?_
      rintro d ⟨⟩
      exact s.setsNow_half _

theorem moves_lapse (c : Instr) (s : State) (p : Pool) (o : OfferSlot) : Moves c s (s.lapse p o) := by
  unfold State.lapse
  split
  · exact moves_toFree c s p _ _
  · exact moves_toFree c s p _ _
  · exact moves_withdraw c s p _

theorem moves_ceasePinned (c : Instr) (s : State) (p : Pool) : Moves c s (s.ceasePinned p) := by
  unfold State.ceasePinned
  split
  · exact .refl
  · split
    · exact moves_unheld c _ (eq_false_of_ne_true ‹_›) nofun rfl rfl nofun
    · exact moves_markEntry c s p

/-- Where the tag holds the entry, it goes to another lease of the same holder. -/
theorem PinFits.of_holder {s : State} (hs : Sound s) {p : Pool} {t : Tag} {l : Lease}
    (h : (s.leaseOf p).holder = some t) (hl : l.holder = some t) : PinFits s p l := by
  obtain ⟨-, ⟨-, -, hpin⟩, hr⟩ := hs
  obtain ⟨h1, h2, -⟩ := hpin hr
  have hne : s.leaseOf p ≠ .reserved := fun e => by simp [e, Lease.holder] at h
  refine .inr ⟨fun e => by simp [e, Lease.holder] at hl, fun e => hne (h2 p e), ?_⟩
  rintro k b hk rfl
  rw [hl, ← h]
  exact (h1 k b hk).resolve_left hne

theorem admits_of_holder {s : State} {p : Pool} {t : Tag} {l : Lease}
    (h : TableLaws s → (s.leaseOf p).holder = some t) (hl : l.holder = some t) (hs : l.slot = none)
    (hd : ∀ d, l.deadline = some d → s.SetsNow d) : Admits s p l where
  slot := hs
  holder ht u hu q hq := by
    obtain rfl : t = u := Option.some_inj.1 (hl.symm.trans hu)
    exact ht.2.2 q p t hq (h ht)
  deadline := hd
  pin hsound := .of_holder hsound (h hsound.1) hl

/-- The address that neither is RESERVED nor has a holder is not pinned (R13). -/
theorem not_pinned_of_unheld {s : State} (hs : Sound s) {p : Pool} (hr : s.leaseOf p ≠ .reserved)
    (hh : (s.leaseOf p).holder = none) : s.store.pinned p = false := by
  obtain ⟨-, ⟨-, -, hpin⟩, hready⟩ := hs
  obtain ⟨h1, h2, -⟩ := hpin hready
  refine Store.not_pinned_iff.2 ⟨?_, fun e => hr (h2 p e)⟩
  rintro k b hk rfl
  exact (h1 k b hk).elim hr fun e => by simp [hh] at e

/-- A superseded address is named by no binding (R124). -/
theorem superseded_not_bound {st : Store} (h : ChangeLaw st) {p : Pool} (hp : st.superseded = some p) {k : BindSlot}
    {b : Binding} (hb : st.shadow[k] = some b) : b.addr ≠ p := by
  unfold Store.superseded at hp
  split at hp
  · rename_i r hm
    have hr := h r hm
    split at hp
    · rename_i j before after old hc
      rw [hc] at hr
      obtain ⟨hafter, hold, hback⟩ := hr
      rw [hp] at hold
      unfold supersededBy at hold
      split at hold
      · rename_i b'
        split at hold
        · cases hold
        · rename_i hne
          cases hold
          by_cases hkj : k = j
          · subst k
            rw [hafter] at hb
            cases hb
            exact Ne.symm hne
          · exact (hback b' rfl).2 k b hkj hb
      · cases hold
    · cases hp
  · cases hp

/-- The address that a tag is bound to takes any lease of that tag. -/
theorem PinFits.of_bound {s : State} (hs : Sound s) {k : BindSlot} {b : Binding} (hb : s.store.shadow[k] = some b)
    {l : Lease} (hl : l.holder = some b.tag) : PinFits s b.addr l := by
  obtain ⟨-, ⟨hshadow, hchange, -⟩, -⟩ := hs
  refine .inr ⟨fun e => by simp [e, Lease.holder] at hl, fun e => superseded_not_bound hchange e hb rfl, ?_⟩
  intro j d hj hd
  obtain rfl := hshadow j k d b hj hb (.inr hd)
  rw [hb] at hj
  cases hj
  exact hl

theorem Store.slotOf_eq_some {st : Store} {t : Tag} {k : BindSlot} (h : st.slotOf t = some k) :
    ∃ b, st.shadow[k] = some b ∧ b.tag = t := by
  have hk := List.find?_some h
  split at hk
  · rename_i b hb
    exact ⟨b, hb, by simpa using hk⟩
  · cases hk

theorem Store.bindingOf_eq_some {st : Store} {t : Tag} {b : Binding} (h : st.bindingOf t = some b) :
    b.tag = t ∧ ∃ k : BindSlot, st.slotOf t = some k ∧ st.shadow[k] = some b := by
  obtain ⟨k, hk, hb⟩ := Option.bind_eq_some_iff.1 h
  obtain ⟨d, hd, ht⟩ := Store.slotOf_eq_some hk
  have hdb : some d = some b := hd.symm.trans hb
  cases hdb
  exact ⟨ht, k, hk, hb⟩

theorem holdsAtMost_of_nothing {s : State} {t : Tag} (h : HoldsNothing s t) (p : Pool) : HoldsAtMost s t p :=
  fun q hq => absurd hq (h q)

theorem State.holdsEntry_eq_false {s : State} {t : Tag} : s.holdsEntry t = false ↔ HoldsNothing s t := by
  simp [State.holdsEntry, ← State.holding_eq_none]

theorem State.holding_eq_some {s : State} {t : Tag} {p : Pool} (h : s.holding t = some p) :
    (s.leaseOf p).holder = some t := by
  simpa using List.find?_some h

end Sys2Proof.Machine
end

section
/-! SUPPORT. The events of the lease engine and the requests of nodes, as moves. -/

namespace Sys2Proof.Machine

open Sys2Proof.Safety

/-! ### Clock and timers -/

theorem moves_expire (c : Instr) (s : State) (p : Pool) : Moves c s (s.expire p) := by
  unfold State.expire
  split
  · rename_i t k d hl
    split
    · split
      · exact moves_withdraw c s p t
      · exact .changes c _ (admits_of_holder (fun _ => by rw [hl]; rfl) rfl rfl nofun)
    · exact .refl
  · exact .refl

theorem moves_endQuarantine (c : Instr) (s : State) (p : Pool) : Moves c s (s.endQuarantine p) := by
  unfold State.endQuarantine
  split
  · split
    · exact moves_toFree c s p _ _
    · exact .refl
  · exact .refl

theorem moves_closeWindow (c : Instr) (s : State) : Moves c s s.closeWindow := by
  unfold State.closeWindow
  split
  · exact moves_withLease _ rfl rfl rfl rfl (fun _ => rfl) nofun
  · exact .refl

theorem moves_endSecond (c : Instr) (s : State) : Moves c s s.endSecond :=
  State.endSecond_induction (P := Moves c s) (fun u p h => h.trans (moves_expire c u p))
    (fun u p h => h.trans (moves_endQuarantine c u p)) (fun u h => h.trans (moves_closeWindow c u)) .refl

theorem moves_setClock (s : State) (n : LeaseTime) : Moves .leaseClockTick s (s.withLease { s.lease with clock := n }) :=
  moves_withLease _ rfl rfl rfl rfl (fun h => absurd rfl h) fun _ => .inl

theorem moves_tick (s : State) : Moves .leaseClockTick s
    (s.endSecond.withLease { s.endSecond.lease with clock := s.endSecond.nowPlus 1 }) :=
  (moves_endSecond _ s).trans (moves_setClock _ _)

theorem moves_lapseRunOut (c : Instr) (s : State) (p : Pool) : Moves c s (s.lapseRunOut p) := by
  unfold State.lapseRunOut
  split
  · exact moves_lapse c s p _
  · exact .refl

/-- One probe less, or the address withdrawn. -/
theorem moves_probeUnanswered (c : Instr) (s : State) (p : Pool) : Moves c s (s.probeUnanswered p) := by
  unfold State.probeUnanswered
  split
  · rename_i t k n f hl
    split
    · exact moves_setLease c (by rw [hl]; exact ⟨rfl, rfl, rfl, rfl⟩) nofun
    · exact moves_withdraw c s p t
  · exact .refl

theorem moves_probeRunOut (c : Instr) (s : State) (p : Pool) : Moves c s (s.probeRunOut p) := by
  unfold State.probeRunOut
  split
  · exact moves_probeUnanswered c s p
  · exact .refl

theorem moves_endMillisecond (c : Instr) (s : State) : Moves c s s.endMillisecond :=
  State.endMillisecond_induction (P := Moves c s) (fun u p h => h.trans (moves_lapseRunOut c u p))
    (fun u p h => h.trans (moves_probeRunOut c u p)) .refl

theorem Lease.sameStanding_tick (l : Lease) : SameStanding l l.tick := by
  unfold Lease.tick
  split
  · exact ⟨rfl, rfl, rfl, rfl⟩
  · exact .refl _

theorem Lease.deadline_tick (l : Lease) : l.tick.deadline = l.deadline := by
  unfold Lease.tick
  split <;> rfl

@[simp] theorem State.countDown_lease_slots (s : State) (k : SlotId) :
    s.countDown.lease.slots[k] = (s.lease.slots[k]).map fun o => { o with phase := o.phase.tick } := by
  simp [State.countDown]

@[simp] theorem State.leaseOf_countDown (s : State) (p : Pool) : s.countDown.leaseOf p = (s.leaseOf p).tick := by
  rw [State.leaseOf, State.entry_countDown]

theorem moves_countDown (c : Instr) (s : State) : Moves c s s.countDown :=
  .refreshes {
    power := s.countDown_power
    port := s.countDown_port
    store := s.countDown_store
    ready := s.countDown_lease_ready
    freeList := s.countDown_lease_freeList
    slots := fun k => by
      rw [State.countDown_lease_slots, Option.map_map]
      rfl
    clock := fun _ => s.countDown_lease_clock
    window := fun w hw => .inl (s.countDown_lease_window ▸ hw)
    standing := fun p => by
      rw [State.leaseOf_countDown]
      exact Lease.sameStanding_tick _
    deadline := fun p d hd => .inl (by rwa [State.leaseOf_countDown, Lease.deadline_tick] at hd)
    kept := fun p => by
      rw [State.entry_countDown]
      exact ⟨fun _ h => h, fun _ h => h, fun _ _ => rfl⟩ }

theorem moves_millisecond (c : Instr) (s : State) : Moves c s s.millisecond := by
  unfold State.millisecond
  split
  · exact (moves_endMillisecond c s).trans (moves_countDown c _)
  · exact .refl

/-! ### RENEW and RELEASE -/

theorem moves_enqueue (c : Instr) (s : State) (m : Message) : Moves c s (s.enqueue m) := (beside_enqueue s m).moves c

theorem moves_refuseRevoked (c : Instr) (s : State) (t : Tag) : Moves c s (s.refuseRevoked t) :=
  (beside_refuseRevoked s t).moves c

/-- A lease granted to a tag that holds no other entry, where the pinned flag allows it. -/
theorem moves_grantLease (c : Instr) {s : State} {p : Pool} {t : Tag} {k : ClassId}
    (hh : TableLaws s → HoldsAtMost s t p) (hp : Sound s → PinFits s p (.live t k (s.leaseDeadline k))) :
    Moves c s (s.grantLease p t k) :=
  .trans (Moves.changes c _ {
    slot := rfl
    holder := fun ht u hu => by
      cases hu
      exact hh ht
    deadline := by
      rintro d ⟨⟩
      exact s.setsNow_half _
    pin := hp }) (moves_enqueue c _ _)

/-- A lease granted to the tag that holds the entry. -/
theorem moves_grantLease_of_holder (c : Instr) {s : State} {p : Pool} {t : Tag} {k : ClassId}
    (h : TableLaws s → (s.leaseOf p).holder = some t) : Moves c s (s.grantLease p t k) :=
  moves_grantLease c (fun ht q hq => ht.2.2 q p t hq (h ht)) fun hs => .of_holder hs (h hs.1) rfl

/-- A lease granted at an address that was neither held nor RESERVED, to a tag that holds nothing. -/
theorem moves_grantLease_of_unheld (c : Instr) {s : State} {p : Pool} {t : Tag} {k : ClassId} (ht : HoldsNothing s t)
    (hr : s.leaseOf p ≠ .reserved) (hh : (s.leaseOf p).holder = none) : Moves c s (s.grantLease p t k) :=
  moves_grantLease c (fun _ => holdsAtMost_of_nothing ht p) fun hs => pinFits_of_not_pinned (not_pinned_of_unheld hs hr hh) nofun

theorem moves_regrantLease (c : Instr) {s : State} {p : Pool} {t : Tag} {k : ClassId} {d : LeaseTime}
    (h : s.leaseOf p = .live t k d) : Moves c s (s.regrantLease p t k) := by
  refine .trans (moves_setLease c (by rw [h]; exact ⟨rfl, rfl, rfl, rfl⟩) ?_) (moves_enqueue c _ _)
  rintro d ⟨⟩
  exact .inr (s.setsNow_half _)

theorem moves_renew (c : Instr) (s : State) (p : Pool) (t : Tag) (cls : Byte) : Moves c s (s.renew p t cls) := by
  have refuse : Moves c s (s.refuseRenew p t) := moves_enqueue c s _
  unfold State.renew
  split
  · exact refuse
  · split
    · rename_i h k d hl
      split
      · subst h
        exact moves_regrantLease c hl
      · exact refuse
    · rename_i h k n f hl
      split
      · subst h
        exact moves_grantLease_of_holder c fun _ => by rw [hl]; rfl
      · exact refuse
    · rename_i last d hl
      split
      · rename_i hc
        exact moves_grantLease_of_unheld c (State.holdsEntry_eq_false.1 hc.2.1) (by rw [hl]; nofun) (by rw [hl]; rfl)
      · exact refuse
    · rename_i last hl
      split
      · rename_i hc
        exact moves_grantLease_of_unheld c (State.holdsEntry_eq_false.1 hc.1) (by rw [hl]; nofun) (by rw [hl]; rfl)
      · exact refuse
    · split
      · rename_i b hb
        split
        · rename_i hc
          obtain ⟨ha, k, hk⟩ := Store.bindingAt_eq_some hb
          obtain ⟨rfl, hn⟩ := hc
          subst p
          exact moves_grantLease c (fun _ => holdsAtMost_of_nothing (State.holdsEntry_eq_false.1 hn) _) fun hs => .of_bound hs hk rfl
        · exact refuse
      · exact refuse
    · exact refuse
    · exact refuse

/-- A RELEASE withdraws a LIVE or STALE lease of its tag, or has no effect (R69). -/
theorem moves_release (c : Instr) (s : State) (p : Pool) (t : Tag) : Moves c s (match s.leaseOf p with
    | .live h _ _ => if h = t then s.withdraw p t else s
    | .stale h _ _ _ => if h = t then s.withdraw p t else s
    | _ => s) := by
  split
  · split
    · exact moves_withdraw c s p t
    · exact .refl
  · split
    · exact moves_withdraw c s p t
    · exact .refl
  · exact .refl

/-! ### Snoop reports and outcomes -/

@[simp] theorem State.leaseOf_raise (s : State) (k : Cause) (p : Pool) : (s.raise k).leaseOf p = s.leaseOf p := rfl

theorem Moves.trans_raise {c : Instr} {s t : State} (h : Moves c s t) (k : Cause) : Moves c s (t.raise k) :=
  h.trans ((beside_raise t k).moves c)

/-- The entry of a conflict: counted and marked (R84). -/
theorem moves_countConflict (s : State) (p : Pool) (n : Byte) :
    Moves (.snoopReport p) s (s.setEntry p { s.entry p with conflicts := n, mark := true }) :=
  moves_setEntry (.refl _) (fun _ => .inl) ⟨fun _ _ => rfl, fun _ h => h, fun h => absurd rfl h⟩

theorem moves_conflictOn (s : State) (p : Pool) : Moves (.snoopReport p) s (s.conflictOn p) := by
  have counted := fun n => Moves.trans_raise (moves_countConflict s p n) .conflict
  unfold State.conflictOn
  dsimp only
  split
  · rename_i last d hl
    split
    · exact (counted _).trans (moves_toFree _ _ p _ _)
    · refine (counted _).trans (moves_setLease _ ?_ ?_)
      · rw [State.leaseOf_raise, State.leaseOf_setEntry, if_pos rfl]
        simp only [hl]
        exact ⟨rfl, rfl, rfl, rfl⟩
      · rintro d ⟨⟩
        exact .inr (s.setsNow_half _)
  · exact counted _

theorem moves_snoop (s : State) (p : Pool) : Moves (.snoopReport p) s (s.snoop p) := by
  unfold State.snoop
  split
  · rename_i t k d hl
    split
    · refine moves_setLease _ (by rw [hl]; exact ⟨rfl, rfl, rfl, rfl⟩) ?_
      rintro d ⟨⟩
      exact .inr (s.setsNow_half _)
    · exact .refl
  · rename_i t k n f hl
    split
    · refine .changes _ _ (admits_of_holder (fun _ => by rw [hl]; rfl) rfl rfl ?_)
      rintro d ⟨⟩
      exact s.setsNow_half _
    · exact .refl
  · split
    · exact moves_conflictOn s p
    · exact .refl

theorem moves_startProbeTimer (c : Instr) (s : State) (p : Pool) : Moves c s (s.startProbeTimer p) := by
  unfold State.startProbeTimer
  split
  · rename_i t k n f hl
    exact moves_setLease c (by rw [hl]; exact ⟨rfl, rfl, rfl, rfl⟩) nofun
  · exact .refl

theorem moves_clearNotice (s : State) (p : Pool) :
    Moves (.evictOutcome p) s (s.setEntry p { s.entry p with evict := .absent }) :=
  moves_setEntry (.refl _) (fun _ => .inl) ⟨fun _ h => h, fun h => absurd rfl h, fun _ _ => rfl⟩

/-! ### Joining -/

/-- An offer that a slot and its entry name is the one that is asked for (R34). -/
theorem State.offerOn_eq_some {s : State} {t : Tag} {p : Pool} {k : SlotId} {o : OfferSlot}
    (h : s.offerOn t p = some (k, o)) :
    o.tag = t ∧ o.addr = p ∧ s.lease.slots[k] = some o ∧ ∃ u c, s.leaseOf p = .offered u c k := by
  unfold State.offerOn at h
  split at h
  · rename_i u c j hl
    split at h
    · rename_i o' ho
      split at h
      · rename_i hc
        cases h
        exact ⟨hc.1, hc.2, ho, u, c, hl⟩
      · cases h
    · cases h
  · cases h

/-- The tag of a matching offer holds the entry (R34). -/
theorem holder_of_offerOn {s : State} (hs : OfferLaw s) {t : Tag} {p : Pool} {k : SlotId} {o : OfferSlot}
    (h : s.offerOn t p = some (k, o)) : (s.leaseOf p).holder = some t := by
  obtain ⟨rfl, rfl, ho, -⟩ := State.offerOn_eq_some h
  rw [hs.2 k o ho]
  rfl

theorem State.waitingOffer_eq_some {s : State} {t : Tag} {p : Pool} {o : OfferSlot} (h : s.waitingOffer t p = some o) :
    ∃ k, s.offerOn t p = some (k, o) := by
  unfold State.waitingOffer at h
  split at h
  · rename_i k o' ho
    split at h
    · cases h
      exact ⟨k, ho⟩
    · cases h
  · cases h

theorem moves_claimOffer (c : Instr) (s : State) (t : Tag) (p : Pool) : Moves c s (s.claimOffer t p) := by
  unfold State.claimOffer
  split
  · rename_i o ho
    obtain ⟨k, hk⟩ := State.waitingOffer_eq_some ho
    exact moves_grantLease_of_holder c fun hs => holder_of_offerOn hs.2.1 hk
  · exact moves_enqueue c s _

theorem moves_claim (c : Instr) (s : State) (t : Tag) (a : Byte) : Moves c s (s.claim t a) := by
  unfold State.claim
  split
  · exact moves_enqueue c s _
  · split
    · rename_i h k d hl
      split
      · subst h
        exact moves_regrantLease c hl
      · exact moves_claimOffer c s t _
    · exact moves_claimOffer c s t _

theorem moves_repeatOffer (c : Instr) (s : State) (p : Pool) : Moves c s (s.repeatOffer p) := by
  unfold State.repeatOffer
  split
  · split
    · exact moves_enqueue c s _
    · exact .refl
  · exact .refl

theorem moves_refuseJoin (c : Instr) (s : State) (t : Tag) (r : RefuseReason) : Moves c s (s.refuseJoin t r) :=
  ((beside_enqueue s _).trans (beside_raise _ _)).moves c

theorem State.freeSlot_eq_some {s : State} {k : SlotId} (h : s.freeSlot = some k) : s.lease.slots[k] = none := by
  simpa using List.find?_some h

/-- Cases 5 to 7 of the choice name a FREE address (R29 to R31). -/
theorem State.chooseFree_offer {s : State} {t : Tag} {h : Byte} {p : Pool} {ret : ReturnState}
    (hc : s.chooseFree t h = .offer p ret) (hs : FreeListLaw s) : (s.leaseOf p).isFree = true := by
  unfold State.chooseFree at hc
  split at hc
  · rename_i q hq
    cases hc
    obtain ⟨a, -, ha⟩ := Option.bind_eq_some_iff.1 hq
    split at ha
    · cases ha
      assumption
    · cases ha
  · split at hc
    · rename_i q hq
      cases hc
      have := List.find?_some hq
      simp only [Bool.and_eq_true] at this
      exact this.1
    · split at hc
      · rename_i q l hl
        cases hc
        exact (hs.2 p).1 (by simp [hl])
      · cases hc

/-- The order of address choice offers only what may be offered (R24). -/
theorem State.chooseAddress_offerable {s : State} {t : Tag} {h : Byte} {p : Pool} {ret : ReturnState} {k : SlotId}
    (hc : s.chooseAddress t h = .offer p ret) (hk : s.lease.slots[k] = none) : Offerable s k t p := by
  unfold State.chooseAddress at hc
  split at hc
  · rename_i q hq
    split at hc
    · cases hc
    · cases hc
      have hp := State.holding_eq_some hq
      exact ⟨hk, fun hs q hq => hs.2.2 q p t hq hp, fun hs _ => .of_holder hs hp rfl⟩
  · rename_i hn
    have hnothing := State.holding_eq_none.1 hn
    refine ⟨hk, fun _ => holdsAtMost_of_nothing hnothing p, fun hs c => ?_⟩
    split at hc
    · rename_i b hb
      cases hc
      obtain ⟨ht, j, -, hj⟩ := Store.bindingOf_eq_some hb
      exact .of_bound hs hj (by rw [ht]; rfl)
    · split at hc
      · rename_i q hq
        cases hc
        have hp := List.find?_some hq
        simp only [Bool.and_eq_true, beq_iff_eq] at hp
        refine pinFits_of_not_pinned (not_pinned_of_unheld hs (fun e => ?_) ?_) nofun
        · simp [e, Lease.state] at hp
        · cases hl : s.leaseOf p <;> simp [hl, Lease.state, Lease.holder] at hp ⊢
      · obtain ⟨last, hl⟩ := Lease.isFree_iff.1 (State.chooseFree_offer hc hs.1.1)
        exact pinFits_of_not_pinned (not_pinned_of_unheld hs (by rw [hl]; nofun) (by rw [hl]; rfl)) nofun

theorem moves_join (c : Instr) (s : State) (t : Tag) (cls h : Byte) : Moves c s (s.join t cls h) := by
  unfold State.join
  split
  · exact moves_enqueue c s _
  · split
    · exact moves_repeatOffer c s _
    · exact moves_refuseJoin c s t _
    · rename_i p ret hc
      split
      · rename_i k hk
        exact .trans (.single (.offer (o := ⟨t, p, _, _, ret, .queued⟩)
          (State.chooseAddress_offerable hc (State.freeSlot_eq_some hk)))) (moves_enqueue c _ _)
      · exact moves_refuseJoin c s t _

end Sys2Proof.Machine
end

section
/-! SUPPORT. The requests of the host: the form of every answer, and what its owner does to the lease engine. -/

namespace Sys2Proof.Machine

open Sys2Proof.Safety

/-! ### The form of an answer (R163, R200) -/

/-- At most 24 data bytes; REFUSED carries one and no other status but OK any (R163, R200). -/
structure Formed (status : ReplyStatus) (data : List Byte) : Prop where
  bound : data.length ≤ 24
  refused : status = .refused → data.length = 1
  bare : status ≠ .ok → status ≠ .refused → data = []

theorem formed_ok {d : List Byte} (h : d.length ≤ 24) : Formed .ok d := ⟨h, nofun, fun h => absurd rfl h⟩

theorem formed_bare {st : ReplyStatus} (h : st ≠ .refused) : Formed st [] :=
  ⟨by simp, fun e => absurd e h, fun _ _ => rfl⟩

theorem formed_refused (r : RefusedReason) : Formed .refused [r.code] := ⟨by simp, fun _ => rfl, fun _ h => absurd rfl h⟩

@[simp] theorem length_beBytes (k n : Nat) : (beBytes k n).length = k := by
  induction k with
  | zero => rfl
  | succ k ih => simp [beBytes, ih]

@[simp] theorem length_tagBytes (t : Tag) : (tagBytes t).length = 6 := length_beBytes _ _
@[simp] theorem length_timeBytes (t : LeaseTime) : (timeBytes t).length = 4 := length_beBytes _ _
@[simp] theorem length_halfBytes (h : Half) : (halfBytes h).length = 2 := length_beBytes _ _

@[simp] theorem State.length_leaseRecord (s : State) (p : Pool) : (s.leaseRecord p).length = 16 := by
  simp [State.leaseRecord]

@[simp] theorem Store.length_bindingRecord (st : Store) (k : BindSlot) : (st.bindingRecord k).length = 10 := by
  unfold Store.bindingRecord
  split <;> simp

@[simp] theorem State.length_classRecord (s : State) (k : ClassId) : (s.classRecord k).length = 5 := by
  simp [State.classRecord]

@[simp] theorem State.length_timingRecord (s : State) : (s.timingRecord).length = 9 := by
  simp [State.timingRecord]

@[simp] theorem State.length_statusRecord (s : State) : s.statusRecord.length = 24 := by
  simp only [State.statusRecord, List.length_append, List.length_cons, List.length_nil, length_timeBytes, length_tagBytes]
  split <;> simp

theorem State.length_scanData (s : State) (chosen : List Pool) (more : Bool) (h : chosen.length ≤ 8) :
    (s.scanData chosen more).length ≤ 24 := by
  simp only [State.scanData, List.length_cons, List.length_flatMap, List.length_nil]
  simp
  omega

theorem State.length_freeListData (s : State) (start : Nat) : (s.freeListData start).length ≤ 24 := by
  simp only [State.freeListData, List.length_append, List.length_cons, List.length_nil, List.length_map, List.length_take]
  omega

/-! ### What an owner does -/

/-- The store is in its scan. -/
def Store.isScanning (st : Store) : Prop := ∃ p, st.mode = .scanning p

/-- The command is a Bind or an Unbind, the only requests that write the store. -/
def Binds (c : Instr) : Prop := ∃ ps, c = .bind ps ∨ c = .unbind ps

/-- What the owner of a request answers: a formed reply, a lease engine moved on, over another store if it is a Bind or an
Unbind, and, where the request passes the gate, nothing changed (R157, R163). -/
structure Answers (c : Instr) (code : RequestCode) (s : State) (a : Answer) : Prop where
  formed : Formed a.status a.data
  moves : Moves c s a.state ∨ Binds c ∧ ∃ st : Store, (st.isScanning ↔ s.store.isScanning) ∧ Moves c (s.withStore st) a.state
  gate : code.passesGate = true → a.state = s

theorem Answers.of_formed {c : Instr} {code : RequestCode} {s : State} {st : ReplyStatus} {d : List Byte}
    (h : Formed st d) : Answers c code s ⟨s, st, d⟩ := ⟨h, .inl .refl, fun _ => rfl⟩

theorem answers_badParam (c : Instr) (code : RequestCode) (s : State) : Answers c code s (.badParam s) :=
  .of_formed (formed_bare nofun)

theorem answers_refused (c : Instr) (code : RequestCode) (s : State) (r : RefusedReason) :
    Answers c code s (.refused s r) := .of_formed (formed_refused r)

/-- Data read from the state, which stays. -/
theorem answers_ok {c : Instr} {code : RequestCode} {s : State} {d : List Byte} (h : d.length ≤ 24) :
    Answers c code s (.ok s d) := .of_formed (formed_ok h)

/-- Moves of the lease engine, on a request that does not pass the gate. -/
theorem answers_moves {c : Instr} {code : RequestCode} {s t : State} {d : List Byte} (hg : code.passesGate = false)
    (hd : d.length ≤ 24) (hm : Moves c s t) : Answers c code s (.ok t d) :=
  ⟨formed_ok hd, .inl hm, fun h => by simp [hg] at h⟩

/-- Moves of the lease engine over the store that a Bind or an Unbind leaves. -/
theorem answers_store {c : Instr} {code : RequestCode} {s t : State} {d : List Byte} (st : Store)
    (hg : code.passesGate = false) (hc : Binds c) (hst : st.isScanning ↔ s.store.isScanning) (hd : d.length ≤ 24)
    (hm : Moves c (s.withStore st) t) : Answers c code s (.ok t d) :=
  ⟨formed_ok hd, .inr ⟨hc, st, hst, hm⟩, fun h => by simp [hg] at h⟩

theorem answers_withoutParams {c : Instr} {code : RequestCode} {s : State} {ps : List Byte} {own : State → Answer}
    (h : Answers c code s (own s)) : Answers c code s (withoutParams ps own s) := by
  unfold withoutParams
  split
  · exact h
  · exact answers_badParam c code s

/-! ### Owner by owner -/

theorem answers_acknowledge (c : Instr) (ps : List Byte) (s : State) : Answers c .acknowledge s (ownAcknowledge ps s) := by
  unfold ownAcknowledge
  split
  · exact answers_moves rfl (by simp) ((beside_withAtt s _).moves c)
  · exact answers_badParam c _ s

theorem answers_enable (c : Instr) (ps : List Byte) (s : State) : Answers c .enable s (ownEnable ps s) := by
  unfold ownEnable
  split
  · exact answers_moves rfl (by simp) ((beside_withAtt s _).moves c)
  · exact answers_badParam c _ s

theorem moves_clearConflicts (ps : List Byte) (s : State) (p : Pool) :
    Moves (.lookupAddressClear ps) s (s.setEntry p { s.entry p with conflicts := 0 }) :=
  moves_setEntry (.refl _) (fun _ => .inl) ⟨fun _ h => h, fun _ h => h, fun _ h => absurd rfl (h ps)⟩

theorem answers_lookupAddressClear (ps : List Byte) (s : State) :
    Answers (.lookupAddressClear ps) .lookupAddress s (ownLookupAddress ps s) := by
  unfold ownLookupAddress
  split
  · split
    · exact answers_badParam _ _ s
    · split
      · exact answers_ok (by simp)
      · split
        · exact answers_moves rfl (by simp) (moves_clearConflicts _ s _)
        · exact answers_badParam _ _ s
  · exact answers_badParam _ _ s

/-- Without option 0x01 a Lookup Address only reads (R170). -/
theorem answers_lookupAddress (c : Instr) (ps : List Byte) (s : State) (h : hasOption ps 0x01 = false) :
    Answers c .lookupAddress s (ownLookupAddress ps s) := by
  unfold ownLookupAddress
  split
  · split
    · exact answers_badParam _ _ s
    · split
      · exact answers_ok (by simp)
      · split
        · rename_i ho
          simp [hasOption, ho] at h
        · exact answers_badParam _ _ s
  · exact answers_badParam _ _ s

theorem answers_lookupTag (c : Instr) (ps : List Byte) (s : State) : Answers c .lookupTag s (ownLookupTag ps s) := by
  unfold ownLookupTag
  split
  · dsimp only
    split
    · exact answers_ok (by simp)
    · split
      · exact answers_ok (by simp)
      · exact .of_formed (formed_bare nofun)
  · exact answers_badParam _ _ s

@[simp] theorem State.entry_clearMarks (s : State) (chosen : List Pool) (p : Pool) :
    (s.clearMarks chosen).entry p = if chosen.contains p then { s.entry p with mark := false } else s.entry p := by
  simp [State.clearMarks, State.entry]

theorem State.leaseOf_clearMarks (s : State) (chosen : List Pool) (p : Pool) :
    (s.clearMarks chosen).leaseOf p = s.leaseOf p := by
  rw [State.leaseOf, State.entry_clearMarks]
  split <;> rfl

theorem moves_clearMarks (ps : List Byte) (s : State) (chosen : List Pool) : Moves (.scan ps) s (s.clearMarks chosen) :=
  .refreshes {
    power := by simp [State.clearMarks]
    port := by simp [State.clearMarks]
    store := by simp [State.clearMarks]
    ready := by simp [State.clearMarks]
    freeList := by simp [State.clearMarks]
    slots := fun k => by simp [State.clearMarks]
    clock := fun _ => by simp [State.clearMarks]
    window := fun w hw => .inl (by simpa [State.clearMarks] using hw)
    standing := fun p => by
      rw [State.leaseOf_clearMarks]
      exact .refl _
    deadline := fun p d hd => .inl (by rwa [State.leaseOf_clearMarks] at hd)
    kept := fun p => by
      rw [State.entry_clearMarks]
      split
      · exact ⟨fun h => absurd rfl (h ps), fun _ h => h, fun _ _ => rfl⟩
      · exact Kept.refl _ p _ }

theorem answers_scan (ps : List Byte) (s : State) : Answers (.scan ps) .scan s (ownScan s) :=
  answers_moves rfl (s.length_scanData _ _ (by simp)) (moves_clearMarks ps s _)

theorem answers_freeList (c : Instr) (ps : List Byte) (s : State) : Answers c .freeList s (ownFreeList ps s) := by
  unfold ownFreeList
  split
  · split
    · exact answers_ok (s.length_freeListData _)
    · exact answers_badParam _ _ s
  · exact answers_badParam _ _ s

theorem answers_revoke (c : Instr) (ps : List Byte) (s : State) : Answers c .revoke s (ownRevoke ps s) := by
  have evicted : ∀ (p : Pool) (t : Tag), Moves c s ((s.setEvict p t .admin).withdraw p t) := fun p t =>
    (moves_setEvict c s p t _).trans (moves_withdraw c _ p t)
  unfold ownRevoke
  split
  · split
    · unfold State.revoke
      split
      · exact answers_moves rfl (by simp) (evicted _ _)
      · exact answers_moves rfl (by simp) (evicted _ _)
      · exact answers_moves rfl (by simp) ((moves_withdraw c s _ _).trans (moves_refuseRevoked c _ _))
      · exact answers_moves rfl (by simp) (moves_toFree c s _ _ _)
      · exact answers_refused _ _ s _
      · exact answers_refused _ _ s _
      · exact answers_refused _ _ s _
    · exact answers_badParam _ _ s
  · exact answers_badParam _ _ s

theorem answers_withhold (c : Instr) (ps : List Byte) (s : State) : Answers c .withhold s (ownWithhold ps s) := by
  unfold ownWithhold
  split
  · split
    · exact answers_badParam _ _ s
    · split
      · unfold State.withhold
        split
        · exact answers_refused _ _ s _
        · have withheld := fun x => moves_unheld c x (eq_false_of_ne_true ‹_›) (l := .withheld) nofun rfl rfl nofun
          split
          · exact answers_moves rfl (by simp) (withheld _)
          · exact answers_moves rfl (by simp) (withheld _)
          · exact answers_ok (by simp)
          · exact answers_refused _ _ s _
          · exact answers_refused _ _ s _
          · exact answers_refused _ _ s _
          · exact answers_refused _ _ s _
      · split
        · unfold State.unwithhold
          split
          · exact answers_moves rfl (by simp) (moves_toFree c s _ _ _)
          · exact answers_refused _ _ s _
        · exact answers_badParam _ _ s
  · exact answers_badParam _ _ s

theorem answers_classSet (c : Instr) (ps : List Byte) (s : State) : Answers c .classSet s (ownClassSet ps s) := by
  unfold ownClassSet
  split
  · split
    · split
      · exact answers_moves rfl (by simp) (moves_withLease _ rfl rfl rfl rfl (fun _ => rfl) fun _ => .inl)
      · exact answers_badParam _ _ s
    · exact answers_badParam _ _ s
  · exact answers_badParam _ _ s

theorem answers_classGet (c : Instr) (ps : List Byte) (s : State) : Answers c .classGet s (ownClassGet ps s) := by
  unfold ownClassGet
  split
  · split
    · exact answers_ok (by simp)
    · exact answers_badParam _ _ s
  · exact answers_badParam _ _ s

/-- A window that a Timing Set leaves open closes after the clock (R88). -/
theorem LeaseEngine.windowAfter_ahead {l : LeaseEngine} {v : Half} {w : LeaseTime} (h : l.windowAfter v = some w) :
    l.clock.toNat ≤ w.toNat := by
  unfold LeaseEngine.windowAfter at h
  split at h
  · cases h
  · split at h
    · cases h
    · cases h
      have := v.isLt
      simp only [BitVec.toNat_ofNat]
      omega

theorem answers_timingSet (c : Instr) (ps : List Byte) (s : State) : Answers c .timingSet s (ownTimingSet ps s) := by
  unfold ownTimingSet
  split
  · dsimp only
    split
    · exact answers_moves rfl (by simp)
        (moves_withLease _ rfl rfl rfl rfl (fun _ => rfl) fun _ h => .inr (LeaseEngine.windowAfter_ahead h))
    · exact answers_badParam _ _ s
  · exact answers_badParam _ _ s

theorem answers_bindingRead (c : Instr) (ps : List Byte) (s : State) : Answers c .bindingRead s (ownBindingRead ps s) := by
  unfold ownBindingRead
  split
  · split
    · exact answers_ok (by simp)
    · exact answers_badParam _ _ s
  · exact answers_badParam _ _ s

/-! ### Bind and Unbind -/

theorem moves_markIfNewlyPinned (c : Instr) (s : State) (a : Pool) (b : Bool) : Moves c s (s.markIfNewlyPinned a b) := by
  unfold State.markIfNewlyPinned
  split
  · exact .refl
  · exact moves_markEntry c s a

/-- The early effect on an address that the shadow now binds (R132). -/
theorem moves_earlyEffect (c : Instr) {s : State} (t : Tag) {a : Pool} (b : Bool) (h : s.store.pinned a = true) :
    Moves c s (s.earlyEffect t a b) := by
  have mark := moves_markIfNewlyPinned c s a b
  have evicted : ∀ u, Moves c s ((s.setEvict a u .pinned).changeLease a .reserved .tail) := fun u =>
    (moves_setEvict c s a u _).trans (moves_reserved c _ h)
  unfold State.earlyEffect
  split
  · exact moves_reserved c _ h
  · exact moves_reserved c _ h
  · exact mark
  · exact mark
  · split
    · exact mark
    · exact (moves_reserved c _ h).trans (moves_refuseRevoked c _ _)
  · split
    · exact mark
    · exact evicted _
  · split
    · exact mark
    · exact evicted _

theorem moves_moveAway (c : Instr) (s : State) (t : Tag) (a : Pool) : Moves c s (s.moveAway t a) := by
  unfold State.moveAway
  split
  · exact .refl
  · split
    · exact (moves_withdraw c s _ t).trans (moves_refuseRevoked c _ _)
    · exact (moves_setEvict c s _ t _).trans (moves_withdraw c _ _ t)

/-- The store of an accepted Bind (R131). -/
def State.boundStore (s : State) (k : BindSlot) (b : BindParams) (target : SectorId) : Store :=
  { s.store.beginRewrite (s.bindChange k b) target with shadow := s.store.shadow.set k (some ⟨b.tag, b.addr, b.cls⟩) }

theorem State.acceptBind_eq (s : State) (k : BindSlot) (b : BindParams) (target : SectorId) :
    s.acceptBind k b target =
      ((s.withStore (s.boundStore k b target)).earlyEffect b.tag b.addr (s.store.pinned b.addr)).moveAway b.tag b.addr := rfl

theorem State.boundStore_pinned (s : State) (k : BindSlot) (b : BindParams) (target : SectorId) :
    (s.boundStore k b target).pinned b.addr = true :=
  Store.pinned_iff.2 (.inl ⟨k, ⟨b.tag, b.addr, b.cls⟩, by simp [State.boundStore], rfl⟩)

theorem moves_acceptBind (c : Instr) (s : State) (k : BindSlot) (b : BindParams) (target : SectorId) :
    Moves c (s.withStore (s.boundStore k b target)) (s.acceptBind k b target) := by
  rw [State.acceptBind_eq]
  exact (moves_earlyEffect c _ _ (s.boundStore_pinned k b target)).trans (moves_moveAway c _ _ _)

/-- A rewrite begins in READY, so no scan begins or ends with it. -/
theorem isScanning_rewriting {st st' : Store} {r : Rewrite} (hm : st.mode = .ready) (h : st'.mode = .rewriting r) :
    st'.isScanning ↔ st.isScanning := by
  simp [Store.isScanning, hm, h]

/-- Everything that a Bind with its parameters in range answers: a status without effect, or acceptance in READY (R130, R131). -/
theorem State.bind_cases (s : State) (b : BindParams) :
    (∃ st d, s.bind b = ⟨s, st, d⟩ ∧ Formed st d) ∨
    ∃ k target, s.store.mode = .ready ∧ s.store.bindSlot b.tag = some k ∧ s.store.boundToOther b.tag b.addr = false ∧
      s.leaseOf b.addr ≠ .withheld ∧ s.bind b = .ok (s.acceptBind k b target) [byteOf k.val, 0x01] := by
  have refused : ∀ r, ∃ st d, Answer.refused s r = ⟨s, st, d⟩ ∧ Formed st d := fun r => ⟨_, _, rfl, formed_refused r⟩
  unfold State.bind
  split
  · exact .inl ⟨_, _, rfl, formed_bare nofun⟩
  · exact .inl ⟨_, _, rfl, formed_bare nofun⟩
  · exact .inl (refused _)
  · rename_i hm
    dsimp only
    split
    · exact .inl (refused _)
    · split
      · exact .inl (refused _)
      · split
        · exact .inl (refused _)
        · rename_i hb hw
          split
          · exact .inl (refused _)
          · rename_i k hk
            split
            · exact .inl (refused _)
            · split
              · exact .inl ⟨_, _, rfl, formed_ok (by simp)⟩
              · split
                · exact .inl (refused _)
                · exact .inr ⟨k, _, hm, hk, eq_false_of_ne_true hb, hw, rfl⟩

theorem answers_bind (ps : List Byte) (s : State) : Answers (.bind ps) .bind s (ownBind ps s) := by
  unfold ownBind
  split
  · rename_i b _
    rcases s.bind_cases b with ⟨st, d, h, hf⟩ | ⟨k, target, hm, -, -, -, h⟩
    · rw [h]
      exact .of_formed hf
    · rw [h]
      exact answers_store (s.boundStore k b target) rfl ⟨ps, .inl rfl⟩ (isScanning_rewriting hm rfl) (by simp) (moves_acceptBind _ s k b target)
  · exact answers_badParam _ _ s

/-- Everything that an Unbind of a valid tag answers: a status without effect, or acceptance in READY (R136). -/
theorem State.unbind_cases (s : State) (t : Tag) :
    (∃ st d, s.unbind t = ⟨s, st, d⟩ ∧ Formed st d) ∨
    ∃ k b target, s.store.mode = .ready ∧ s.store.shadow[k] = some b ∧
      s.unbind t = .ok (s.withStore (s.store.beginRewrite (.unbind k b) target)) [byteOf k.val] := by
  unfold State.unbind
  split
  · exact .inl ⟨_, _, rfl, formed_bare nofun⟩
  · exact .inl ⟨_, _, rfl, formed_bare nofun⟩
  · exact .inl ⟨_, _, rfl, formed_refused _⟩
  · rename_i hm
    split
    · rename_i k b hk hb
      obtain ⟨-, j, hj, hbj⟩ := Store.bindingOf_eq_some hb
      obtain rfl : j = k := Option.some_inj.1 (hj.symm.trans hk)
      split
      · exact .inl ⟨_, _, rfl, formed_refused _⟩
      · split
        · exact .inl ⟨_, _, rfl, formed_refused _⟩
        · exact .inr ⟨j, b, _, hm, hbj, rfl⟩
    · exact .inl ⟨_, _, rfl, formed_bare nofun⟩

theorem answers_unbind (ps : List Byte) (s : State) : Answers (.unbind ps) .unbind s (ownUnbind ps s) := by
  unfold ownUnbind
  split
  · rcases s.unbind_cases (tagOfBytes ps) with ⟨st, d, h, hf⟩ | ⟨k, b, target, hm, -, h⟩
    · rw [h]
      exact .of_formed hf
    · rw [h]
      exact answers_store _ rfl ⟨ps, .inr rfl⟩ (isScanning_rewriting hm rfl) (by simp) .refl
  · exact answers_badParam _ _ s

end Sys2Proof.Machine
end

section
/-! SUPPORT. What each command can do, said once: the events of the bus engine, the steps of the scan and of a rewrite, the
frames of the host port, and the sorting of all commands but the resets into these effects. -/

namespace Sys2Proof.Machine

open Sys2Proof.Safety

/-! ### Events of the bus engine -/

/-- An event of the bus engine: in the lease engine at most a notice is collected (R115). -/
structure BusEvent (s t : State) : Prop where
  power : t.power = s.power
  store : t.store = s.store
  port : t.port = s.port
  lease : t.lease = s.lease ∨ ∃ p, s.noticeEntry = some p ∧ t.lease = (s.collectNotice p).lease

theorem Beside.busEvent {s t : State} (h : Beside s t) : BusEvent s t := ⟨h.power, h.store, h.port, .inl h.lease⟩

theorem BusEvent.trans_beside {s t u : State} (h : BusEvent s t) (h' : Beside t u) : BusEvent s u :=
  ⟨h'.power.trans h.power, h'.store.trans h.store, h'.port.trans h.port,
    h.lease.imp h'.lease.trans fun ⟨p, hp, hl⟩ => ⟨p, hp, h'.lease.trans hl⟩⟩

theorem Lease.sameStanding_takeProbe (l : Lease) : SameStanding l l.takeProbe := by
  unfold Lease.takeProbe
  split
  · exact ⟨rfl, rfl, rfl, rfl⟩
  · exact .refl _

theorem Lease.deadline_takeProbe (l : Lease) : l.takeProbe.deadline = l.deadline := by
  unfold Lease.takeProbe
  split <;> rfl

/-- A notice is collected: the notice field goes to transmission, or the probe is no longer due (R65, R93). -/
theorem moves_collectNotice (c : Instr) (s : State) (p : Pool) : Moves c s (s.collectNotice p) := by
  unfold State.collectNotice
  dsimp only
  split
  · rename_i t r _
    exact .trans (moves_setEntry (e := { s.entry p with evict := .sending t r }) (.refl _) (fun _ => .inl)
      ⟨fun _ h => h, fun _ _ => nofun, fun _ _ => rfl⟩) ((beside_withBus _ _).moves c)
  · split
    · refine .trans (moves_setEntry (e := { s.entry p with lease := (s.entry p).lease.takeProbe })
        (Lease.sameStanding_takeProbe _) (fun d hd => .inl ?_) ⟨fun _ h => h, fun _ h => h, fun _ _ => rfl⟩)
        ((beside_withBus _ _).moves c)
      rwa [Lease.deadline_takeProbe] at hd
    · exact .refl

theorem BusEvent.moves (c : Instr) {s t : State} (h : BusEvent s t) : Moves c s t := by
  rcases h.lease with hl | ⟨p, -, hl⟩
  · exact Beside.moves c ⟨h.power, hl, h.store, h.port⟩
  · have hm := moves_collectNotice c s p
    exact hm.trans (Beside.moves c ⟨h.power.trans hm.frame.power.symm, hl, h.store.trans hm.frame.store.symm,
      h.port.trans hm.frame.port.symm⟩)

theorem beside_outcome (s : State) (acked : Bool) : Beside s (s.outcome acked) := by
  unfold State.outcome
  split <;> exact beside_withBus s _

theorem beside_countAttempt (s : State) : Beside s s.countAttempt := by
  unfold State.countAttempt
  split
  · exact .refl s
  · split
    · exact beside_withBus s _
    · exact beside_outcome s _

theorem beside_brokenOff (s : State) (e : Engine) : Beside s (s.brokenOff e) :=
  (beside_countAttempt s).trans (beside_setEngine _ e)

theorem busEvent_chooseCurrent (s : State) : BusEvent s s.chooseCurrent := by
  unfold State.chooseCurrent
  split
  · exact (Beside.refl s).busEvent
  · split
    · exact (beside_withBus s _).busEvent
    · split
      · rename_i p hp
        have hm := (moves_collectNotice (.nop []) s p).frame
        exact ⟨hm.power, hm.store, hm.port, .inr ⟨p, hp, rfl⟩⟩
      · exact (Beside.refl s).busEvent

theorem beside_hear (s : State) (dest src kind : Byte) (payload : List Byte) : Beside s (s.hear dest src kind payload) := by
  have hu : Beside s (if src = Config.authority then s.raise .rival else s) := by
    split
    · exact beside_raise s .rival
    · exact .refl s
  unfold State.hear
  dsimp only
  generalize (if src = Config.authority then s.raise .rival else s) = u at hu
  split
  · split
    · exact hu.trans ((beside_report u _).trans (beside_setEngine _ _))
    · exact hu.trans (beside_setEngine u _)
  · split
    · exact hu.trans ((beside_report u _).trans (beside_setEngine _ _))
    · exact hu.trans (beside_setEngine u _)

theorem beside_receive (s : State) (bytes : List Byte) : Beside s (s.receive bytes) := by
  unfold State.receive
  split
  · split
    · exact beside_setEngine s _
    · split
      · split
        · exact beside_hear s _ _ _ _
        · exact beside_setEngine s _
      · exact .refl s
  · exact .refl s

/-! ### Steps of the scan -/

/-- No two bindings of a shadow have the same tag or the same address (R123). -/
def NoRepeat (v : Vector (Option Binding) 32) : Prop :=
  ∀ (j k : BindSlot) (b d : Binding), v[j] = some b → v[k] = some d → b.tag = d.tag ∨ b.addr = d.addr → j = k

theorem shadowLaw_iff {st : Store} : ShadowLaw st ↔ NoRepeat st.shadow := .rfl

theorem getElem_shadow_set (v : Vector (Option Binding) 32) (j k : BindSlot) (b : Option Binding) :
    (v.set k b)[j] = if j = k then b else v[j] := by
  by_cases h : j = k
  · simp [h]
  · rw [if_neg h]
    exact Vector.getElem_set_ne k.isLt j.isLt (Fin.val_ne_of_ne (Ne.symm h))

/-- A slot that takes a binding whose tag and address no other slot has. -/
theorem noRepeat_set {v : Vector (Option Binding) 32} (h : NoRepeat v) (k : BindSlot) (b : Option Binding)
    (hb : ∀ x, b = some x → ∀ (j : BindSlot) (d : Binding), j ≠ k → v[j] = some d → d.tag ≠ x.tag ∧ d.addr ≠ x.addr) :
    NoRepeat (v.set k b) := by
  intro i j x y hi hj hxy
  rw [getElem_shadow_set] at hi hj
  split at hi <;> split at hj
  · simp_all
  · exact absurd hxy (by
      obtain ⟨h1, h2⟩ := hb x hi j y ‹_› hj
      exact not_or.2 ⟨Ne.symm h1, Ne.symm h2⟩)
  · exact absurd hxy (by
      obtain ⟨h1, h2⟩ := hb y hj i x ‹_› hi
      exact not_or.2 ⟨h1, h2⟩)
  · exact h i j x y hi hj hxy

/-- Slots emptied repeat nothing. -/
theorem noRepeat_of_sub {v w : Vector (Option Binding) 32} (h : NoRepeat v)
    (hw : ∀ (k : BindSlot) (b : Binding), w[k] = some b → v[k] = some b) : NoRepeat w :=
  fun i j x y hi hj => h i j x y (hw i x hi) (hw j y hj)

theorem Load.repeats_eq_false {l : Load} {b : Binding} : l.repeats b = false ↔
    ∀ (k : BindSlot) (d : Binding), l.shadow[k] = some d → d.tag ≠ b.tag ∧ d.addr ≠ b.addr := by
  unfold Load.repeats
  rw [List.any_eq_false]
  constructor
  · intro h k d hk
    have := h (some d) (by
      rw [Vector.mem_toList_iff, ← hk]
      exact Vector.getElem_mem k.isLt)
    simpa using this
  · intro h x hx
    cases x with
    | none => simp
    | some d =>
      rw [Vector.mem_toList_iff] at hx
      obtain ⟨i, hi, he⟩ := Vector.mem_iff_getElem.1 hx
      simpa using h ⟨i, hi⟩ d he

/-- The load of a slot repeats nothing (R147). -/
theorem Load.step_noRepeat (st : Store) {l : Load} (k : BindSlot) (h : NoRepeat l.shadow) :
    NoRepeat (Load.step st l k).shadow := by
  unfold Load.step
  split
  · exact h
  · split
    · rename_i b _
      split
      · exact h
      · rename_i hr
        refine noRepeat_set h k _ ?_
        rintro x ⟨⟩ j d - hj
        exact Load.repeats_eq_false.1 (eq_false_of_ne_true hr) j d hj
    · exact h

/-- The loaded shadow repeats no tag and no address (R147). -/
theorem Store.loadShadow_noRepeat (st : Store) : NoRepeat st.loadShadow.shadow :=
  List.foldlRecOn (motive := fun l : Load => NoRepeat l.shadow) (List.finRange 32) (Load.step st)
    (fun j k b d hj => by simp at hj) fun _ h k _ => Load.step_noRepeat st k h

theorem Store.afterErases_cases (st : Store) : st.afterErases = st ∨
    ∃ i x l y, st.mode = .scanning ⟨.erasing [], i, x⟩ ∧
      st.afterErases = { st with shadow := st.loadShadow.shadow, mode := .scanning ⟨.repairing l [], y, x⟩ } := by
  unfold Store.afterErases
  split
  · exact .inr ⟨_, _, _, _, ‹_›, rfl⟩
  · exact .inl rfl

theorem Store.afterErases_isScanning (st : Store) : st.afterErases.isScanning ↔ st.isScanning := by
  rcases st.afterErases_cases with h | ⟨i, x, l, y, hm, h⟩
  · rw [h]
  · rw [h]
    exact ⟨fun _ => ⟨_, hm⟩, fun _ => ⟨_, rfl⟩⟩

theorem Store.afterErases_noRepeat {st : Store} (h : NoRepeat st.shadow) : NoRepeat st.afterErases.shadow := by
  rcases st.afterErases_cases with he | ⟨i, x, l, y, -, he⟩
  · rwa [he]
  · rw [he]
    exact st.loadShadow_noRepeat

@[simp] theorem Store.eraseSector_shadow (st : Store) (k : SectorId) (x : Sector) :
    (st.eraseSector k x).shadow = st.shadow := by
  unfold Store.eraseSector
  split <;> rfl

@[simp] theorem Store.eraseSector_mode (st : Store) (k : SectorId) (x : Sector) :
    (st.eraseSector k x).mode = st.mode := by
  unfold Store.eraseSector
  split <;> rfl

@[simp] theorem Store.repaired_shadow (st : Store) (l : LogicalId) (t : SectorId) (q : Half) (e r : Sector) :
    (st.repaired l t q e r).shadow = st.shadow := by
  unfold Store.repaired
  split
  · dsimp only
    split <;> simp [Store.setFlash]
  · rfl

/-- What a repair leaves of the shadow: all of it, or less (R148). -/
theorem Store.repairStep_shadow (st : Store) (l : LogicalId) (rest : List LogicalId) (tried : List SectorId) (i : Bool)
    (image : Sector) (mark : Bool) (erase retry : Sector) (k : BindSlot) (b : Binding)
    (h : (st.repairStep l rest tried i image mark erase retry).shadow[k] = some b) : st.shadow[k] = some b := by
  unfold Store.repairStep at h
  split at h
  · have hg : (st.giveUpLogical l erase).shadow = emptyLogical st.shadow l := by
      unfold Store.giveUpLogical
      split
      · simp
      · rfl
    simp only [hg, emptyLogical, Fin.getElem_fin, Vector.getElem_ofFn] at h
    split at h
    · cases h
    · exact h
  · dsimp only at h
    split at h
    · simpa [Store.setFlash] using h
    · simpa [Store.setFlash] using h

theorem Store.repairStep_isScanning (st : Store) (l : LogicalId) (rest : List LogicalId) (tried : List SectorId) (i : Bool)
    (image : Sector) (mark : Bool) (erase retry : Sector) :
    (st.repairStep l rest tried i image mark erase retry).isScanning := by
  unfold Store.repairStep
  split
  · exact ⟨_, rfl⟩
  · dsimp only
    split
    · exact ⟨_, rfl⟩
    · exact ⟨_, rfl⟩

/-- A step of the scan short of its end: nothing, or another store, still scanning and without repetitions. -/
def ScanStep (s t : State) : Prop :=
  t = s ∨ ∃ st, s.store.isScanning ∧ st.isScanning ∧ (ShadowLaw s.store → ShadowLaw st) ∧ t = s.withStore st

/-! ### Steps of a rewrite -/

/-- A step of a rewrite: nothing, on to another step, or the outcome (R138 to R141). -/
inductive RewriteStepOf (s : State) : State → Prop
  | absent : RewriteStepOf s s
  | goes {r : Rewrite} {st : Store} (step : RewriteStep) : s.store.mode = .rewriting r → st.shadow = s.store.shadow →
      st.mode = .rewriting { r with step := step } → RewriteStepOf s (s.withStore st)
  | ends {r : Rewrite} {st : Store} (o : RewriteOutcome) : s.store.mode = .rewriting r → st.shadow = s.store.shadow →
      st.mode = .rewriting r → RewriteStepOf s ((s.withStore st).rewriteOutcome r o)

/-- The store after the outcome of a rewrite (R141). -/
def Store.settled (st : Store) (r : Rewrite) (o : RewriteOutcome) : Store :=
  { st with shadow := r.change.settle (o != RewriteOutcome.failed) st.shadow, mode := st.settledMode, last := r.change.result o }

/-- An outcome is the settled store, the end of a pinned flag, and STORE (R141). -/
theorem State.rewriteOutcome_eq (s : State) (r : Rewrite) (o : RewriteOutcome) :
    s.rewriteOutcome r o = (match r.change.unpins (o != RewriteOutcome.failed) with
      | some p => (s.withStore (s.store.settled r o)).ceasePinned p
      | none => s.withStore (s.store.settled r o)).raise .store := rfl

theorem moves_rewriteOutcome (c : Instr) (s : State) (r : Rewrite) (o : RewriteOutcome) :
    Moves c (s.withStore (s.store.settled r o)) (s.rewriteOutcome r o) := by
  rw [State.rewriteOutcome_eq]
  split
  · exact Moves.trans_raise (moves_ceasePinned c _ _) _
  · exact Moves.trans_raise .refl _

theorem Store.settledMode_cases (st : Store) : st.settledMode = .ready ∨ st.settledMode = .degraded := by
  unfold Store.settledMode
  split
  · exact .inl rfl
  · exact .inr rfl

/-- A step of a rewrite moves the lease engine on from another store that does not scan either. -/
theorem RewriteStepOf.moves (c : Instr) {s t : State} (h : RewriteStepOf s t) :
    t = s ∨ ∃ st : Store, ¬ s.store.isScanning ∧ ¬ st.isScanning ∧ Moves c (s.withStore st) t := by
  have hrw : ∀ {st : Store} {r : Rewrite}, st.mode = .rewriting r → ¬ st.isScanning := fun h ⟨p, hp⟩ => by simp [h] at hp
  cases h with
  | absent => exact .inl rfl
  | goes step hm _ hm' => exact .inr ⟨_, hrw hm, hrw hm', .refl⟩
  | @ends r st o hm _ hm' =>
    refine .inr ⟨st.settled r o, hrw hm, ?_, moves_rewriteOutcome c (s.withStore st) r o⟩
    rintro ⟨p, hp⟩
    rcases st.settledMode_cases with h | h <;> simp [Store.settled, h] at hp

/-! ### Frames of the host port -/

/-- A frame on the host port. -/
structure FrameStep (s t : State) : Prop where
  power : t.power = s.power
  lease : t.lease = s.lease
  store : t.store = s.store
  reply : ∀ r, t.port.buffer = .ready r → s.port.buffer = .ready r ∨ Formed r.status r.data
  pending : ∀ c ps, t.port.buffer = .pending c ps →
    s.port.buffer = .pending c ps ∨ (s.lease.ready = false → c.passesGate = true)
  frame : (s.port.frame ≠ none → s.power = .running ∧ s.port.hselLow = true) →
    t.port.frame ≠ none → t.power = .running ∧ t.port.hselLow = true

theorem frameStep_withPort (s : State) {b : Bool} {f : Option Frame}
    (h : (s.port.frame ≠ none → s.power = .running ∧ s.port.hselLow = true) →
      f ≠ none → s.power = .running ∧ b = true) :
    FrameStep s (s.withPort { s.port with hselLow := b, frame := f }) :=
  ⟨rfl, rfl, rfl, fun _ => .inl, fun _ _ => .inl, h⟩

/-- A frame error, a check error or an unknown code is no refusal (R156). -/
theorem judge_error {ready : Bool} {bytes : List Byte} {x : Bool} {st : ReplyStatus} {e : Byte}
    (h : judge ready bytes x = .error st e) : st ≠ .refused := by
  unfold judge at h
  split at h
  · cases h; nofun
  · cases h; nofun
  · split at h
    · cases h; nofun
    · split at h
      · cases h; nofun
      · split at h
        · cases h; nofun
        · split at h
          · cases h; nofun
          · split at h <;> cases h

/-- What is handed to an owner before the lease engine is ready passes the gate (R157). -/
theorem judge_execute {ready : Bool} {bytes : List Byte} {x : Bool} {c : RequestCode} {ps : List Byte}
    (h : judge ready bytes x = .execute c ps) : ready = true ∨ c.passesGate = true := by
  unfold judge at h
  split at h
  · cases h
  · cases h
  · split at h
    · cases h
    · split at h
      · cases h
      · split at h
        · cases h
        · split at h
          · cases h
          · split at h
            · cases h
              assumption
            · cases h

theorem frameStep_dispatch {s u : State} (hu : FrameStep s u) (hf : u.port.frame = none) {bytes : List Byte} {x : Bool} :
    FrameStep s (u.dispatch (judge s.lease.ready bytes x)) := by
  have noFrame : ∀ {t : State}, t.port.frame = none →
      t.port.frame ≠ none → t.power = .running ∧ t.port.hselLow = true := fun e h => absurd e h
  cases hj : judge s.lease.ready bytes x with
  | error st e =>
    refine ⟨hu.power, hu.lease, hu.store, fun r hr => .inr ?_, nofun, fun _ => noFrame hf⟩
    cases hr
    exact formed_bare (judge_error hj)
  | starting e =>
    refine ⟨hu.power, hu.lease, hu.store, fun r hr => .inr ?_, nofun, fun _ => noFrame hf⟩
    cases hr
    exact formed_bare nofun
  | execute c ps =>
    refine ⟨hu.power, hu.lease, hu.store, nofun, fun c' ps' h => .inr fun hr => ?_, fun _ => noFrame hf⟩
    cases h
    exact (judge_execute hj).resolve_left (by simp [hr])

/-! ### All commands but the resets -/

/-- What a command that is no reset can do, and when. -/
inductive Effect (c : Instr) (s : State) : Result → Prop
  /-- no event -/
  | absent : Effect c s (.next s)
  /-- an event of the lease engine -/
  | event {f : State → State} : (∀ u, Moves c u (f u)) → Effect c s (whenReady f s)
  /-- a snoop report or an outcome that the lease engine takes -/
  | news {w : Report → Bool} {f : State → State} : (∀ u, Moves c u (f u)) → Effect c s (takeNews w f s)
  /-- an event of the bus engine -/
  | bus {f : State → State} : (∀ u, BusEvent u (f u)) → Effect c s (whenRunning f s)
  /-- a request of the host -/
  | owner {code : RequestCode} {ps : List Byte} {own : State → Answer} :
      (∀ u, Answers c code u (own u)) → Effect c s (serve code ps own s)
  /-- an end of a frame -/
  | frame {t : State} : actsWithoutRunning c = true → FrameStep s t → Effect c s (.next t)
  /-- a step of the scan -/
  | scan {f : State → State} : touchesStore c = true → (∀ u, ScanStep u (f u)) → Effect c s (whenRunning f s)
  /-- a step of a rewrite -/
  | rewrite {f : State → State} : touchesStore c = true → (∀ u, RewriteStepOf u (f u)) → Effect c s (whenRunning f s)

/-- A request of a node is an event of the lease engine on the state without its report. -/
theorem effect_takeRequest {c : Instr} {r : Report} {f : State → State} (h : ∀ u, Moves c u (f u)) (s : State) :
    Effect c s (takeRequest r f s) := by
  refine .event fun u => ?_
  split
  · rename_i u' hu
    refine .trans (Beside.moves c ?_) (h u')
    unfold State.takeReport at hu
    split at hu
    · cases hu
    · split at hu
      · cases hu
        exact beside_withBus u _
      · cases hu
  · exact .refl

theorem effect_scanSectorErase (reads : Sector) (s : State) :
    Effect (.scanSectorErase reads) s (execScanSectorErase reads s) := by
  refine .scan rfl fun u => ?_
  split
  · rename_i hm
    exact .inr ⟨_, ⟨_, hm⟩, ⟨_, rfl⟩, fun h => by simpa [shadowLaw_iff] using h, rfl⟩
  · exact .inl rfl

theorem effect_scanRepair (image : Sector) (mark : Bool) (erase retry : Sector) (s : State) :
    Effect (.scanRepair image mark erase retry) s (execScanRepair image mark erase retry s) := by
  refine .scan rfl fun u => ?_
  split
  · rename_i hm
    refine .inr ⟨_, u.store.afterErases_isScanning.1 ⟨_, hm⟩, Store.repairStep_isScanning _ _ _ _ _ _ _ _ _, fun h => ?_, rfl⟩
    exact noRepeat_of_sub (Store.afterErases_noRepeat (shadowLaw_iff.1 h)) (Store.repairStep_shadow _ _ _ _ _ _ _ _ _)
  · exact .inl rfl

theorem effect_imageProgram (reads : Sector) (s : State) : Effect (.imageProgram reads) s (execImageProgram reads s) := by
  refine .rewrite rfl fun u => ?_
  split
  · rename_i r hm
    split
    · exact .goes _ hm rfl rfl
    · exact .absent
  · exact .absent

theorem effect_validMark (reads : Bool) (s : State) : Effect (.validMark reads) s (execValidMark reads s) := by
  refine .rewrite rfl fun u => ?_
  split
  · rename_i r hm
    split
    · split
      · dsimp only
        split
        · exact .goes _ hm rfl rfl
        · exact .ends _ hm rfl hm
      · exact .goes _ hm rfl rfl
    · exact .absent
  · exact .absent

theorem effect_targetErase (reads : Sector) (s : State) : Effect (.targetErase reads) s (execTargetErase reads s) := by
  refine .rewrite rfl fun u => ?_
  split
  · rename_i r hm
    split
    · exact .ends _ hm (by simp) (by simp [hm])
    · exact .absent
  · exact .absent

theorem effect_supersededErase (reads : Sector) (s : State) :
    Effect (.supersededErase reads) s (execSupersededErase reads s) := by
  refine .rewrite rfl fun u => ?_
  split
  · rename_i r hm
    split
    · split
      · exact .ends _ hm (by simp [Store.adoptTarget]) (by simp [Store.adoptTarget, hm])
      · split
        · exact .ends _ hm (by simp [Store.adoptTarget]) (by simp [Store.adoptTarget, hm])
        · exact .goes _ hm rfl rfl
    · exact .absent
  · exact .absent

theorem effect_hselNFall (hsck : Bool) (s : State) : Effect (.hselNFall hsck) s (execHselNFall hsck s) := by
  refine .frame rfl ?_
  split
  · exact ⟨rfl, rfl, rfl, fun _ => .inl, fun _ _ => .inl, fun h => h⟩
  · split
    · exact frameStep_withPort s fun _ _ => ⟨‹_›, rfl⟩
    · exact frameStep_withPort s fun h hf => ⟨(h hf).1, rfl⟩

theorem effect_hselNRise (bytes : List Byte) (edges : Fin 8) (s : State) :
    Effect (.hselNRise bytes edges) s (execHselNRise bytes edges s) := by
  have ended : FrameStep s (s.withPort { s.port with hselLow := false, frame := none }) :=
    frameStep_withPort s fun _ h => absurd rfl h
  refine .frame rfl ?_
  dsimp only
  split
  · exact ended
  · split
    · exact frameStep_dispatch ended rfl
    · exact ended

theorem busEvent_ownStart (s : State) : Effect .ownStart s (execOwnStart s) := by
  refine .bus fun u => ?_
  split
  · split
    · exact (busEvent_chooseCurrent u).trans_beside (beside_setEngine _ _)
    · exact (Beside.refl u).busEvent
  · exact (Beside.refl u).busEvent

theorem effect_currentMessageChoice (s : State) : Effect .currentMessageChoice s (execCurrentMessageChoice s) := by
  refine .bus fun u => ?_
  split
  · exact (Beside.refl u).busEvent
  · exact busEvent_chooseCurrent u

theorem effect_arbitrationLost (bit : Nat) (s : State) : Effect (.arbitrationLost bit) s (execArbitrationLost bit s) := by
  refine .bus fun u => Beside.busEvent ?_
  split
  · split
    · exact beside_setEngine u _
    · exact .refl u
  · exact .refl u

theorem effect_ownTransmissionAck (s : State) : Effect .ownTransmissionAck s (execOwnTransmissionAck s) := by
  refine .bus fun u => Beside.busEvent ?_
  split
  · exact (beside_outcome u _).trans (beside_setEngine _ _)
  · exact .refl u

theorem effect_attempt (r : AttemptResult) (s : State) : Effect (.attempt r) s (execAttempt r s) := by
  refine .bus fun u => Beside.busEvent ?_
  split
  · cases r <;> exact beside_brokenOff u _
  · exact .refl u

theorem effect_busStartByOther (s : State) : Effect .busStartByOther s (execBusStartByOther s) := by
  refine .bus fun u => Beside.busEvent ?_
  split
  · exact .refl u
  · exact beside_setEngine u _
  · exact beside_setEngine u _
  · exact beside_setEngine u _
  · exact beside_brokenOff u _
  · exact .refl u
  · exact .refl u

theorem effect_busStop (s : State) : Effect .busStop s (execBusStop s) := by
  refine .bus fun u => Beside.busEvent ?_
  split
  · exact .refl u
  · exact .refl u
  · exact beside_setEngine u _
  · exact beside_setEngine u _
  · exact beside_brokenOff u _
  · exact beside_setEngine u _
  · exact .refl u

theorem effect_busIdleGap (s : State) : Effect .busIdleGap s (execBusIdleGap s) := by
  refine .bus fun u => Beside.busEvent ?_
  split
  · exact beside_setEngine u _
  · exact beside_setEngine u _
  · exact .refl u
  · exact .refl u

theorem effect_brokenTransaction (b : Breaker) (s : State) : Effect (.brokenTransaction b) s (execBrokenTransaction b s) := by
  refine .bus fun u => Beside.busEvent ?_
  split
  · exact beside_setEngine u _
  · exact beside_setEngine u _
  · exact .refl u

theorem effect_stuckBus (s : State) : Effect .stuckBus s (execStuckBus s) := by
  refine .bus fun u => Beside.busEvent ?_
  split
  · exact .refl u
  · split
    · exact (beside_countAttempt u).trans (beside_enterFault _)
    · exact beside_enterFault u
    · exact beside_enterFault u
    · exact beside_enterFault u
    · exact .refl u

theorem effect_faultExit (s : State) : Effect .faultExit s (execFaultExit s) := by
  refine .bus fun u => Beside.busEvent ?_
  split
  · exact beside_withBus u _
  · exact .refl u

theorem effect_transactionReceived (bytes : List Byte) (s : State) :
    Effect (.transactionReceived bytes) s (execTransactionReceived bytes s) := by
  refine .bus fun u => Beside.busEvent ?_
  split
  · split
    · exact beside_receive u _
    · exact .refl u
  · exact .refl u

theorem effect_leaseClockTick (s : State) : Effect .leaseClockTick s (execLeaseClockTick s) := by
  refine .event fun u => ?_
  exact moves_tick u

theorem effect_resolve (src : Byte) (q : Tag) (s : State) : Effect (.resolve src q) s (execResolve src q s) :=
  effect_takeRequest (fun u => moves_enqueue _ u _) s

theorem effect_whois (src a : Byte) (s : State) : Effect (.whois src a) s (execWhois src a s) :=
  effect_takeRequest (fun u => moves_enqueue _ u _) s

theorem effect_offerCompletion (t : Tag) (p : Pool) (s : State) :
    Effect (.offerCompletion t p) s (execOfferCompletion t p s) := by
  refine .news fun u => ?_
  split
  · rename_i k o ho
    exact moves_putSlot _ (State.offerOn_eq_some ho).2.2.1 rfl
  · exact .refl

theorem effect_offerDrop (t : Tag) (p : Pool) (s : State) : Effect (.offerDrop t p) s (execOfferDrop t p s) := by
  refine .news fun u => ?_
  split
  · split
    · exact moves_lapse _ u p _
    · exact .refl
  · exact .refl

theorem effect_probeCompletion (p : Pool) (t : Tag) (s : State) :
    Effect (.probeCompletion p t) s (execProbeCompletion p t s) := by
  refine .news fun u => ?_
  split
  · exact moves_startProbeTimer _ u p
  · exact .refl

theorem effect_probeDrop (p : Pool) (t : Tag) (s : State) : Effect (.probeDrop p t) s (execProbeDrop p t s) := by
  refine .news fun u => ?_
  split
  · exact moves_probeUnanswered _ u p
  · exact .refl

theorem effect_evictOutcome (p : Pool) (s : State) : Effect (.evictOutcome p) s (execEvictOutcome p s) := by
  refine .news fun u => ?_
  split
  · exact moves_clearNotice u p
  · exact .refl

theorem effect_lookupAddress (ps : List Byte) (s : State) : Effect (.lookupAddress ps) s (execLookupAddress ps s) := by
  unfold execLookupAddress
  split
  · exact .absent
  · exact .owner fun u => answers_lookupAddress _ ps u (eq_false_of_ne_true ‹_›)

theorem effect_lookupAddressClear (ps : List Byte) (s : State) :
    Effect (.lookupAddressClear ps) s (execLookupAddressClear ps s) := by
  unfold execLookupAddressClear
  split
  · exact .absent
  · exact .owner fun u => answers_lookupAddressClear ps u

theorem effect_withholdOn (ps : List Byte) (s : State) : Effect (.withholdOn ps) s (execWithholdOn ps s) := by
  unfold execWithholdOn
  split
  · exact .absent
  · exact .owner fun u => answers_withhold _ ps u

theorem effect_withholdOff (ps : List Byte) (s : State) : Effect (.withholdOff ps) s (execWithholdOff ps s) := by
  unfold execWithholdOff
  split
  · exact .absent
  · exact .owner fun u => answers_withhold _ ps u

/-- Every command but a reset, the end of one, the end of the scan and a Restart has one of these effects. -/
theorem exec_effect {c : Instr} (s : State) (hr : isReset c = false) (he : c ≠ .hardResetEnd) : Effect c s (exec c s) := by
  cases c with
  | hardReset _ _ => cases hr
  | hardResetEnd => exact absurd rfl he
  | powerLoss _ => cases hr
  | scanEnd => cases hr
  | restart _ _ _ => cases hr
  | scanSectorErase reads => exact effect_scanSectorErase reads s
  | scanRepair image mark erase retry => exact effect_scanRepair image mark erase retry s
  | imageProgram reads => exact effect_imageProgram reads s
  | validMark reads => exact effect_validMark reads s
  | targetErase reads => exact effect_targetErase reads s
  | supersededErase reads => exact effect_supersededErase reads s
  | leaseClockTick => exact effect_leaseClockTick s
  | expiry p => exact .event fun u => moves_expire _ u p
  | endOfQuarantine p => exact .event fun u => moves_endQuarantine _ u p
  | adoptionWindowClose => exact .event fun u => moves_closeWindow _ u
  | offerTimeout p => exact .event fun u => moves_lapseRunOut _ u p
  | probeTimeout p => exact .event fun u => moves_probeRunOut _ u p
  | busStartByOther => exact effect_busStartByOther s
  | ownStart => exact busEvent_ownStart s
  | currentMessageChoice => exact effect_currentMessageChoice s
  | arbitrationLost bit => exact effect_arbitrationLost bit s
  | transactionReceived bytes => exact effect_transactionReceived bytes s
  | brokenTransaction b => exact effect_brokenTransaction b s
  | busStop => exact effect_busStop s
  | busIdleGap => exact effect_busIdleGap s
  | ownTransmissionAck => exact effect_ownTransmissionAck s
  | attempt r => exact effect_attempt r s
  | stuckBus => exact effect_stuckBus s
  | faultExit => exact effect_faultExit s
  | join t cls hint => exact effect_takeRequest (fun u => moves_join _ u t cls hint) s
  | claim t a => exact effect_takeRequest (fun u => moves_claim _ u t a) s
  | renew src t cls => exact effect_takeRequest (fun u => moves_renew _ u src t cls) s
  | release src t => exact effect_takeRequest (fun u => moves_release _ u src t) s
  | resolve src q => exact effect_resolve src q s
  | whois src a => exact effect_whois src a s
  | snoopReport p => exact .news fun u => moves_snoop u p
  | offerCompletion t p => exact effect_offerCompletion t p s
  | offerDrop t p => exact effect_offerDrop t p s
  | probeCompletion p t => exact effect_probeCompletion p t s
  | probeDrop p t => exact effect_probeDrop p t s
  | evictOutcome p => exact effect_evictOutcome p s
  | replyOutcome => exact .news fun _ => .refl
  | hselNFall hsck => exact effect_hselNFall hsck s
  | hselNRise bytes edges => exact effect_hselNRise bytes edges s
  | nop _ => exact .owner fun _ => answers_withoutParams (answers_ok (by simp))
  | ident _ => exact .owner fun _ => answers_withoutParams (answers_ok (by decide))
  | status _ => exact .owner fun _ => answers_withoutParams (answers_ok (by simp))
  | acknowledge ps => exact .owner fun u => answers_acknowledge _ ps u
  | enable ps => exact .owner fun u => answers_enable _ ps u
  | lookupAddress ps => exact effect_lookupAddress ps s
  | lookupAddressClear ps => exact effect_lookupAddressClear ps s
  | lookupTag ps => exact .owner fun u => answers_lookupTag _ ps u
  | scan ps => exact .owner fun u => answers_withoutParams (answers_scan ps u)
  | freeList ps => exact .owner fun u => answers_freeList _ ps u
  | revoke ps => exact .owner fun u => answers_revoke _ ps u
  | withholdOn ps => exact effect_withholdOn ps s
  | withholdOff ps => exact effect_withholdOff ps s
  | classSet ps => exact .owner fun u => answers_classSet _ ps u
  | classGet ps => exact .owner fun u => answers_classGet _ ps u
  | timingSet ps => exact .owner fun u => answers_timingSet _ ps u
  | timingGet _ => exact .owner fun _ => answers_withoutParams (answers_ok (by simp))
  | bind ps => exact .owner fun u => answers_bind ps u
  | unbind ps => exact .owner fun u => answers_unbind ps u
  | bindingRead ps => exact .owner fun u => answers_bindingRead _ ps u

end Sys2Proof.Machine
end

section
/-! SUPPORT and PROOFS. What every command keeps, read off its effect: the laws of the lease table, the deadlines, the form of
the reply and the starting gate. -/

namespace Sys2Proof.Machine

open Sys2Proof.Safety

/-! ### When an event is taken, the other way round -/

theorem whenReady_next {f : State → State} {s t : State} (h : whenReady f s = .next t) :
    ¬ Serving s ∧ t = s ∨ Serving s ∧ t = f s := by
  by_cases hs : Serving s
  · rw [whenReady_serving f hs] at h
    cases h
    exact .inr ⟨hs, rfl⟩
  · rw [whenReady_not_serving f hs] at h
    cases h
    exact .inl ⟨hs, rfl⟩

theorem whenRunning_next {f : State → State} {s t : State} (h : whenRunning f s = .next t) :
    s.power ≠ .running ∧ t = s ∨ s.power = .running ∧ t = f s := by
  unfold whenRunning at h
  split at h
  · cases h
    exact .inr ⟨‹_›, rfl⟩
  · cases h
    exact .inl ⟨‹_›, rfl⟩

theorem takeReport_eq_some {s u : State} {w : Report → Bool} (h : s.takeReport w = some u) :
    ∃ rest, u = taken s rest := by
  unfold State.takeReport at h
  split at h
  · cases h
  · split at h
    · cases h
      exact ⟨_, rfl⟩
    · cases h

theorem takeNews_next {w : Report → Bool} {f : State → State} {s t : State} (h : takeNews w f s = .next t) :
    t = s ∨ s.power = .running ∧ ∃ rest, s.lease.ready = false ∧ t = taken s rest ∨
      s.lease.ready = true ∧ t = f (taken s rest) := by
  rcases whenRunning_next h with ⟨-, rfl⟩ | ⟨hp, rfl⟩
  · exact .inl rfl
  · split
    · rename_i u hu
      obtain ⟨rest, rfl⟩ := takeReport_eq_some hu
      refine .inr ⟨hp, rest, ?_⟩
      split
      · exact .inr ⟨‹_›, rfl⟩
      · exact .inl ⟨eq_false_of_ne_true ‹_›, rfl⟩
    · exact .inl rfl

theorem serve_next {code : RequestCode} {ps : List Byte} {own : State → Answer} {s t : State}
    (h : serve code ps own s = .next t) :
    t = s ∨ Asked s code ps ∧ t = (own s).state.putReply ⟨(own s).status, code.byte, (own s).data⟩ := by
  rcases whenRunning_next h with ⟨-, rfl⟩ | ⟨hp, rfl⟩
  · exact .inl rfl
  · split
    · exact .inr ⟨⟨hp, ‹_›⟩, rfl⟩
    · exact .inl rfl

theorem step_cases {s t : State} (h : step s = .next t) :
    s.pending = [] ∧ t = s.millisecond ∨ ∃ c rest, s.pending = c :: rest ∧ exec c (s.withPending rest) = .next t := by
  unfold step at h
  split at h
  · cases h
    exact .inl ⟨‹_›, rfl⟩
  · exact .inr ⟨_, _, ‹_›, h⟩

/-- What does not read the queue, and is kept by the millisecond and by every command, every step keeps. -/
theorem step_keeps {P : State → Prop} (queue : ∀ s q, P s → P (s.withPending q)) (idle : ∀ s, P s → P s.millisecond)
    (command : ∀ c s t, P s → exec c s = .next t → P t) {s t : State} (hs : P s) (h : step s = .next t) : P t := by
  rcases step_cases h with ⟨-, rfl⟩ | ⟨c, rest, -, hc⟩
  · exact idle s hs
  · exact command c _ t (queue s rest hs) hc

/-! ### What an effect comes to -/

/-- An effect moves the lease engine on from a store that is the old one unless the command touches it, and that scans if the
old one does. -/
structure Leads (c : Instr) (s t : State) : Prop where
  power : t.power = s.power
  moves : ∃ (st : Store) (u : State), (touchesStore c = false → st = s.store) ∧ (st.isScanning ↔ s.store.isScanning) ∧
    Moves c (s.withStore st) u ∧ t.lease = u.lease ∧ t.store = u.store

theorem Leads.of_moves {c : Instr} {s t : State} (h : Moves c s t) : Leads c s t :=
  ⟨h.frame.power, s.store, t, fun _ => rfl, .rfl, h, rfl, rfl⟩

theorem Effect.leads {c : Instr} {s t : State} {r : Result} (h : Effect c s r) (e : r = .next t) : Leads c s t := by
  cases h with
  | absent =>
    cases e
    exact .of_moves .refl
  | event hf =>
    rcases whenReady_next e with ⟨-, rfl⟩ | ⟨-, rfl⟩
    · exact .of_moves .refl
    · exact .of_moves (hf s)
  | news hf =>
    rcases takeNews_next e with rfl | ⟨-, rest, ⟨-, rfl⟩ | ⟨-, rfl⟩⟩
    · exact .of_moves .refl
    · exact .of_moves ((beside_taken s rest).moves c)
    · exact .of_moves (((beside_taken s rest).moves c).trans (hf _))
  | bus hf =>
    rcases whenRunning_next e with ⟨-, rfl⟩ | ⟨-, rfl⟩
    · exact .of_moves .refl
    · exact .of_moves ((hf s).moves c)
  | owner hf =>
    rcases serve_next e with rfl | ⟨-, rfl⟩
    · exact .of_moves .refl
    · rcases (hf s).moves with hm | ⟨hc, st, hscan, hm⟩
      · exact ⟨hm.frame.power, s.store, _, fun _ => rfl, .rfl, hm, rfl, rfl⟩
      · refine ⟨hm.frame.power, st, _, fun h => ?_, hscan, hm, rfl, rfl⟩
        obtain ⟨ps, rfl | rfl⟩ := hc <;> cases h
  | frame _ hf =>
    cases e
    exact ⟨hf.power, s.store, s, fun _ => rfl, .rfl, .refl, hf.lease, hf.store⟩
  | scan hc hf =>
    rcases whenRunning_next e with ⟨-, rfl⟩ | ⟨-, rfl⟩
    · exact .of_moves .refl
    · rcases hf s with h | ⟨st, hs, hst, -, h⟩
      · rw [h]
        exact .of_moves .refl
      · rw [h]
        exact ⟨rfl, st, _, fun h => by simp [hc] at h, iff_of_true hst hs, .refl, rfl, rfl⟩
  | rewrite hc hf =>
    rcases whenRunning_next e with ⟨-, rfl⟩ | ⟨-, rfl⟩
    · exact .of_moves .refl
    · rcases (hf s).moves c with h | ⟨st, hs, hst, hm⟩
      · rw [h]
        exact .of_moves .refl
      · exact ⟨hm.frame.power, st, _, fun h => by simp [hc] at h, iff_of_false hst hs, hm, rfl, rfl⟩

/-- What a reset, the end of one, the end of the scan or a Restart can do. -/
inductive Rebuild (s : State) : State → Prop
  | absent : Rebuild s s
  | lost {p : Power} (fast : Bool) (cut : FlashCut) : p ≠ .running → Rebuild s (s.volatileLost p fast cut)
  | began : s.power = .held → Rebuild s { s with power := .running, store := s.store.beginScan }
  | ended {st : Store} (o : ScanOutcome) : s.power = .running → s.store.isScanning →
      (ShadowLaw s.store → ShadowLaw st) → Rebuild s (s.endScan st o)
  | restarted {ps : List Byte} {sent : Nat} {outbid : Bool} : Asked s .restart ps →
      Rebuild s ((s.restart sent outbid).putReply ⟨.ok, RequestCode.restart.byte, []⟩)
  | refused {ps : List Byte} : Asked s .restart ps →
      Rebuild s (s.putReply ⟨.badParam, RequestCode.restart.byte, []⟩)

theorem rebuild_scanEnd {s t : State} (h : execScanEnd s = .next t) : Rebuild s t := by
  rcases whenRunning_next h with ⟨-, rfl⟩ | ⟨hp, rfl⟩
  · exact .absent
  · split
    · exact .ended _ hp (s.store.afterErases_isScanning.1 ⟨_, ‹_›⟩) Store.afterErases_noRepeat
    · exact .absent

theorem rebuild_restart {ps : List Byte} {sent : Nat} {outbid : Bool} {s t : State}
    (h : exec (.restart ps sent outbid) s = .next t) : Rebuild s t := by
  rcases serve_next h with rfl | ⟨ha, rfl⟩
  · exact .absent
  · unfold withoutParams
    split
    · exact .restarted ha
    · exact .refused ha

/-- The five commands that rebuild, and all others. -/
theorem rebuilds_cases (c : Instr) : (∃ spd cut, c = .hardReset spd cut) ∨ (∃ cut, c = .powerLoss cut) ∨ c = .hardResetEnd ∨
    c = .scanEnd ∨ (∃ ps sent outbid, c = .restart ps sent outbid) ∨ isReset c = false ∧ c ≠ .hardResetEnd := by
  cases c <;> simp [isReset]

/-- Every command is an effect or a rebuilding. -/
theorem exec_cases {c : Instr} {s t : State} (h : exec c s = .next t) :
    Effect c s (.next t) ∨ (isReset c = true ∨ c = .hardResetEnd) ∧ Rebuild s t := by
  rcases rebuilds_cases c with ⟨spd, cut, rfl⟩ | ⟨cut, rfl⟩ | rfl | rfl | ⟨ps, sent, outbid, rfl⟩ | ⟨hr, he⟩
  · cases h
    exact .inr ⟨.inl rfl, .lost _ _ nofun⟩
  · cases h
    refine .inr ⟨.inl rfl, ?_⟩
    split
    · exact .absent
    · exact .lost _ _ nofun
  · cases h
    refine .inr ⟨.inr rfl, ?_⟩
    split
    · exact .began ‹_›
    · exact .absent
  · exact .inr ⟨.inl rfl, rebuild_scanEnd h⟩
  · exact .inr ⟨.inl rfl, rebuild_restart h⟩
  · exact .inl (h ▸ exec_effect s hr he)

/-! ### The lease table built -/

@[simp] theorem leaseOf_build {s : State} {st : Store} (h : s.lease = buildLeaseEngine st) (p : Pool) :
    s.leaseOf p = if st.pinned p then .reserved else .free none := by
  simp [State.leaseOf, State.entry, h, buildLeaseEngine, Entry.blank]

theorem tableLaws_build {s : State} {st : Store} (h : s.lease = buildLeaseEngine st) : TableLaws s := by
  have hl := leaseOf_build h
  refine ⟨⟨?_, fun p => ?_⟩, ⟨fun p t c k hp => ?_, fun k o hk => ?_⟩, fun p q t hp => ?_⟩
  · rw [h]
    exact (List.nodup_finRange 112).filter fun p => !st.pinned p
  · rw [hl, h]
    cases hp : st.pinned p <;> simp [buildLeaseEngine, pools, hp, Lease.isFree, Lease.state]
  · rw [hl] at hp
    split at hp <;> cases hp
  · simp [h, buildLeaseEngine] at hk
  · rw [hl] at hp
    split at hp <;> simp [Lease.holder] at hp

theorem deadlineLaw_build {s : State} {st : Store} (h : s.lease = buildLeaseEngine st) : DeadlineLaw s := by
  refine ⟨fun p d hd => ?_, fun w hw => ?_⟩
  · rw [leaseOf_build h] at hd
    split at hd <;> cases hd
  · rw [h]
    exact Nat.zero_le _

@[simp] theorem leaseOf_notReady {s : State} (h : s.lease = .notReady) (p : Pool) : s.leaseOf p = .free none := by
  simp [State.leaseOf, State.entry, h, LeaseEngine.notReady, Entry.blank]

theorem tableLaws_notReady {s : State} (h : s.lease = .notReady) : TableLaws s := by
  have hl := leaseOf_notReady h
  refine ⟨⟨?_, fun p => ?_⟩, ⟨fun p t c k hp => ?_, fun k o hk => ?_⟩, fun p q t hp => ?_⟩
  · rw [h]
    exact List.nodup_finRange 112
  · simp [hl, h, LeaseEngine.notReady, Lease.isFree, Lease.state]
  · simp [hl] at hp
  · simp [h, LeaseEngine.notReady] at hk
  · simp [hl, Lease.holder] at hp

theorem deadlineLaw_notReady {s : State} (h : s.lease = .notReady) : DeadlineLaw s := by
  refine ⟨fun p d hd => ?_, fun w hw => ?_⟩
  · simp [leaseOf_notReady h, Lease.deadline] at hd
  · simp [h, LeaseEngine.notReady] at hw

/-- The lease engine after a rebuilding. -/
theorem Rebuild.lease {s t : State} (h : Rebuild s t) :
    t.lease = s.lease ∨ t.lease = .notReady ∨ ∃ st, t.lease = buildLeaseEngine st := by
  cases h with
  | absent => exact .inl rfl
  | lost => exact .inr (.inl rfl)
  | began => exact .inl rfl
  | ended => exact .inr (.inr ⟨_, rfl⟩)
  | restarted => exact .inr (.inr ⟨_, rfl⟩)
  | refused => exact .inl rfl

/-! ### O54: the laws of the lease table -/

theorem tableLaws_congr {s t : State} (h : t.lease = s.lease) (hs : TableLaws s) : TableLaws t := by
  have hl : ∀ p, t.leaseOf p = s.leaseOf p := fun p => by simp [State.leaseOf, State.entry, h]
  simpa only [TableLaws, FreeListLaw, OfferLaw, OneHolderLaw, hl, h] using hs

theorem deadlineLaw_congr {s t : State} (h : t.lease = s.lease) (hs : DeadlineLaw s) : DeadlineLaw t := by
  have hl : ∀ p, t.leaseOf p = s.leaseOf p := fun p => by simp [State.leaseOf, State.entry, h]
  simpa only [DeadlineLaw, hl, h] using hs

/-- Every command keeps the laws of the lease table (R3, R17, R34). -/
theorem exec_tableLaws {c : Instr} {s t : State} (hs : TableLaws s) (h : exec c s = .next t) : TableLaws t := by
  rcases exec_cases h with he | ⟨-, hr⟩
  · obtain ⟨-, st, u, -, -, hm, hl, -⟩ := he.leads rfl
    exact tableLaws_congr hl (hm.tableLaws (tableLaws_congr (s := s) rfl hs))
  · rcases hr.lease with hl | hl | ⟨st, hl⟩
    · exact tableLaws_congr hl hs
    · exact tableLaws_notReady hl
    · exact tableLaws_build hl

/-- The entry of an address has no deadline in the second of the clock. -/
def NotDue (s : State) (p : Pool) : Prop := (s.leaseOf p).deadline ≠ some s.lease.clock

/-- The lease that a withdrawal leaves (R13, R71, R73). -/
def State.withdrawnLease (s : State) (p : Pool) (t : Tag) : Lease :=
  if s.store.pinned p then .reserved
  else if s.lease.timing.quarantine = 0 then .free (some t)
  else .quarantine t (s.nowPlus s.lease.timing.quarantine.toNat)

theorem State.withdraw_eq (s : State) (p : Pool) (t : Tag) :
    s.withdraw p t = s.changeLease p (s.withdrawnLease p t) .tail := by
  unfold State.withdraw State.withdrawnLease
  split
  · rfl
  · split <;> rfl

/-- The lease that a transition into FREE leaves (R13). -/
def State.freedLease (s : State) (p : Pool) (last : Option Tag) : Lease :=
  if s.store.pinned p then .reserved else .free last

theorem State.toFree_eq (s : State) (p : Pool) (last : Option Tag) (x : Place) :
    s.toFree p last x = s.changeLease p (s.freedLease p last) (if s.store.pinned p then .tail else x) := by
  unfold State.toFree State.freedLease
  split <;> rfl

theorem leaseOf_expire_ne (s : State) {p q : Pool} (h : p ≠ q) : (s.expire p).leaseOf q = s.leaseOf q := by
  rcases s.expire_spec p with he | ⟨t, c, -, ⟨-, he⟩ | ⟨-, he⟩⟩
  · rw [he]
  · rw [he, State.withdraw_eq, State.leaseOf_changeLease_ne _ _ _ h]
  · rw [he]
    simp [State.leaseOf, State.entry, moved, Vector.getElem_set_ne, Fin.val_ne_of_ne h]

theorem leaseOf_endQuarantine_ne (s : State) {p q : Pool} (h : p ≠ q) : (s.endQuarantine p).leaseOf q = s.leaseOf q := by
  rcases s.endQuarantine_spec p with he | ⟨t, -, he⟩
  · rw [he]
  · rw [he, State.toFree_eq, State.leaseOf_changeLease_ne _ _ _ h]

theorem clock_expire (s : State) (p : Pool) : (s.expire p).lease.clock = s.lease.clock :=
  Moves.clock (c := .expiry p) nofun (moves_expire _ s p)

theorem clock_endQuarantine (s : State) (p : Pool) : (s.endQuarantine p).lease.clock = s.lease.clock :=
  Moves.clock (c := .expiry p) nofun (moves_endQuarantine _ s p)

theorem clock_endSecond (s : State) : s.endSecond.lease.clock = s.lease.clock :=
  Moves.clock (c := .expiry 0) nofun (moves_endSecond _ s)

/-- An expiry leaves no LIVE lease that is due. -/
theorem expire_not_live_due (s : State) (p : Pool) (t : Tag) (c : ClassId) :
    (s.expire p).leaseOf p ≠ .live t c s.lease.clock := by
  rcases s.expire_spec p with he | ⟨u, k, -, ⟨-, he⟩ | ⟨-, he⟩⟩
  · intro hl
    have hl' := hl
    rw [he] at hl'
    rw [State.expire, hl'] at hl
    simp only [if_true] at hl
    split at hl
    · rw [State.withdraw_eq, State.leaseOf_changeLease_self, State.withdrawnLease] at hl
      split at hl
      · cases hl
      · split at hl <;> cases hl
    · simp at hl
  · rw [he, State.withdraw_eq, State.leaseOf_changeLease_self, State.withdrawnLease]
    split
    · nofun
    · split <;> nofun
  · rw [he]
    simp [State.leaseOf, State.entry, moved]

/-- Nothing that was not LIVE and due is due after the end of its quarantine. -/
theorem notDue_endQuarantine {s : State} {p : Pool} (h : ∀ t c, s.leaseOf p ≠ .live t c s.lease.clock) :
    NotDue (s.endQuarantine p) p := by
  unfold NotDue
  rw [clock_endQuarantine]
  unfold State.endQuarantine
  split
  · rename_i t d hl
    split
    · rw [State.toFree_eq, State.leaseOf_changeLease_self, State.freedLease]
      split <;> nofun
    · simpa [hl, Lease.deadline]
  · rename_i hq
    intro hd
    cases hl : s.leaseOf p <;> simp only [hl, Lease.deadline, Option.some.injEq, reduceCtorEq] at hd
    · subst hd
      exact h _ _ hl
    · exact hq _ _ hl

/-- The events of one entry's second, in the order of `State.endSecond`. -/
theorem notDue_events (s : State) (p q : Pool) (h : p = q ∨ NotDue s p) : NotDue ((s.expire q).endQuarantine q) p := by
  by_cases hpq : q = p
  · subst q
    refine notDue_endQuarantine fun t c => ?_
    rw [clock_expire]
    exact expire_not_live_due s p t c
  · unfold NotDue
    rw [leaseOf_endQuarantine_ne _ hpq, leaseOf_expire_ne _ hpq, clock_endQuarantine, clock_expire]
    exact h.resolve_left (Ne.symm hpq)

theorem notDue_foldl (ps : List Pool) (p : Pool) : ∀ s : State, p ∈ ps ∨ NotDue s p →
    NotDue (ps.foldl (fun s p => (s.expire p).endQuarantine p) s) p := by
  induction ps with
  | nil => exact fun s h => h.resolve_left (by simp)
  | cons q ps ih =>
    intro s h
    refine ih _ ?_
    rcases h with h | h
    · rcases List.mem_cons.1 h with rfl | h
      · exact .inr (notDue_events s p p (.inl rfl))
      · exact .inl h
    · exact .inr (notDue_events s p q (.inr h))

theorem State.closeWindow_leaseOf (s : State) (p : Pool) : s.closeWindow.leaseOf p = s.leaseOf p := by
  unfold State.closeWindow
  split <;> rfl

theorem State.closeWindow_clock (s : State) : s.closeWindow.lease.clock = s.lease.clock := by
  unfold State.closeWindow
  split <;> rfl

theorem State.closeWindow_window (s : State) : s.closeWindow.lease.window ≠ some s.lease.clock := by
  unfold State.closeWindow
  split
  · nofun
  · assumption

/-- The second ends with nothing left due in it (R5, R50). -/
theorem notDue_endSecond (s : State) (p : Pool) : NotDue s.endSecond p := by
  unfold NotDue State.endSecond
  rw [State.closeWindow_leaseOf, State.closeWindow_clock]
  exact notDue_foldl pools p s (.inl (List.mem_finRange p))

/-- The second ends with the window closed, or open to another second (R87). -/
theorem window_endSecond (s : State) : s.endSecond.lease.window ≠ some s.lease.clock := by
  have h := State.closeWindow_window (pools.foldl (fun s p => (s.expire p).endQuarantine p) s)
  rwa [← State.closeWindow_clock, ← State.endSecond, clock_endSecond] at h

/-- The clock moves up by a second to no deadline that it had not passed, where nothing is due in the second that ends (R5,
R50). -/
theorem deadlineLaw_raiseClock {s : State} (hs : DeadlineLaw s) (hlim : s.lease.clock.toNat + 65536 < 2 ^ 32)
    (hd : ∀ p, NotDue s p) (hw : s.lease.window ≠ some s.lease.clock) :
    DeadlineLaw (s.withLease { s.lease with clock := s.nowPlus 1 }) := by
  have hnow : (s.nowPlus 1).toNat = s.lease.clock.toNat + 1 := State.nowPlus_toNat hlim (by decide)
  have ahead : ∀ d : LeaseTime, s.lease.clock.toNat ≤ d.toNat → d ≠ s.lease.clock → (s.nowPlus 1).toNat ≤ d.toNat := by
    intro d hle hne
    have : d.toNat ≠ s.lease.clock.toNat := fun e => hne (BitVec.eq_of_toNat_eq e)
    omega
  refine ⟨fun p d h => ahead d (hs.1 p d h) ?_, fun w h => ahead w (hs.2 w h) ?_⟩
  · rintro rfl
    exact hd p h
  · rintro rfl
    exact hw h

theorem deadlineLaw_tick {s : State} (hs : DeadlineLaw s) (hlim : s.lease.clock.toNat + 65536 < 2 ^ 32) :
    DeadlineLaw (s.endSecond.withLease { s.endSecond.lease with clock := s.endSecond.nowPlus 1 }) := by
  have hc := clock_endSecond s
  refine deadlineLaw_raiseClock ((moves_endSecond (.expiry 0) s).deadlineLaw nofun hlim hs) (by rwa [hc])
    (notDue_endSecond s) ?_
  rw [hc]
  exact window_endSecond s

/-- Every command keeps deadlines and closing point from falling behind the clock, below its limit (R5, R50; log 5). -/
theorem exec_deadlineLaw {c : Instr} {s t : State} (hs : DeadlineLaw s) (hlim : s.lease.clock.toNat + 65536 < 2 ^ 32)
    (h : exec c s = .next t) : DeadlineLaw t := by
  by_cases hc : c = .leaseClockTick
  · subst c
    rcases whenReady_next (show execLeaseClockTick s = .next t from h) with ⟨-, rfl⟩ | ⟨-, rfl⟩
    · exact hs
    · exact deadlineLaw_tick hs hlim
  · rcases exec_cases h with he | ⟨-, hr⟩
    · obtain ⟨-, st, u, -, -, hm, hl, -⟩ := he.leads rfl
      exact deadlineLaw_congr hl (hm.deadlineLaw hc hlim (deadlineLaw_congr (s := s) rfl hs))
    · rcases hr.lease with hl | hl | ⟨st, hl⟩
      · exact deadlineLaw_congr hl hs
      · exact deadlineLaw_notReady hl
      · exact deadlineLaw_build hl

/-- Settles O54: every effect is a chain of moves, each of which keeps the laws; a rebuilding meets them anew. -/
theorem tableLawsAreKept : Obligations.TableLawsAreKept := by
  unfold Obligations.TableLawsAreKept
  refine ⟨fun s t hs h => ?_, fun s t hs hlim h => ?_⟩
  · exact step_keeps (P := TableLaws) (fun _ _ => tableLaws_congr rfl) (fun s => (moves_millisecond (.expiry 0) s).tableLaws)
      (fun _ _ _ => exec_tableLaws) hs h
  · rcases step_cases h with ⟨-, rfl⟩ | ⟨c, rest, -, hc⟩
    · exact (moves_millisecond (.expiry 0) s).deadlineLaw nofun hlim hs
    · exact exec_deadlineLaw (s := s.withPending rest) (deadlineLaw_congr (s := s) rfl hs) hlim hc

end Sys2Proof.Machine
end

section
/-! PROOFS. What does not run or is not ready takes no command (O4); the form of the reply and the starting gate (O56). -/

namespace Sys2Proof.Machine

open Sys2Proof.Safety

/-! ### O4: no command without power, none for the lease engine before it is ready -/

theorem whenRunning_not_running (f : State → State) {s : State} (h : s.power ≠ .running) : whenRunning f s = .next s := by
  simp [whenRunning, h]

theorem Effect.not_running {c : Instr} {s : State} {r : Result} (h : Effect c s r) (hp : s.power ≠ .running)
    (hc : actsWithoutRunning c = false) : r = .next s := by
  cases h with
  | absent => rfl
  | event hf => exact whenReady_not_serving _ fun hs => hp hs.1
  | frame ha hf => simp [hc] at ha
  | _ => exact whenRunning_not_running _ hp

theorem exec_not_running {c : Instr} {s : State} (hp : s.power ≠ .running) (hc : actsWithoutRunning c = false) :
    exec c s = .next s := by
  rcases rebuilds_cases c with ⟨spd, cut, rfl⟩ | ⟨cut, rfl⟩ | rfl | rfl | ⟨ps, sent, outbid, rfl⟩ | ⟨hr, he⟩
  · cases hc
  · cases hc
  · cases hc
  · exact (show execScanEnd s = .next s from whenRunning_not_running _ hp)
  · exact (show execRestart ps sent outbid s = .next s from whenRunning_not_running _ hp)
  · exact (exec_effect s hr he).not_running hp hc

/-- Before the lease engine is ready the store scans (R15, R149). -/
theorem isScanning_of_not_ready {s : State} (hg : GateLaw s) (hr : s.lease.ready = false) : s.store.isScanning := by
  by_contra h
  have : s.lease.ready = true := hg.2.1.2 fun p hp => h ⟨p, hp⟩
  simp [hr] at this

/-- A request that the port holds before the lease engine is ready passes the gate (R157). -/
theorem passes_of_not_ready {s : State} (hg : GateLaw s) (hr : s.lease.ready = false) {code : RequestCode} {ps : List Byte}
    (ha : Asked s code ps) : code.passesGate = true := hg.2.2.1 hr code ps ha.2

/-- An engine that is not ready has no notice to collect. -/
theorem noticeEntry_notReady {s : State} (h : s.lease = .notReady) : s.noticeEntry = none := by
  have he : ∀ p, s.entry p = Entry.blank (.free none) := fun p => by simp [State.entry, h, LeaseEngine.notReady]
  simp [State.noticeEntry, State.leaseOf, he, Entry.blank, EvictDue.isWaiting, Lease.probeDue]

theorem RewriteStepOf.of_scanning {s t : State} (h : RewriteStepOf s t) (hs : s.store.isScanning) : t = s := by
  obtain ⟨p, hp⟩ := hs
  cases h with
  | absent => rfl
  | goes _ hm => simp [hp] at hm
  | ends _ hm => simp [hp] at hm

/-- No effect reaches the lease engine before it is ready (R15, R157). -/
theorem Effect.lease_of_not_ready {c : Instr} {s t : State} {r : Result} (h : Effect c s r) (e : r = .next t)
    (hg : GateLaw s) (hr : s.lease.ready = false) : t.lease = s.lease := by
  cases h with
  | absent =>
    cases e
    rfl
  | event hf =>
    rcases whenReady_next e with ⟨-, rfl⟩ | ⟨hs, -⟩
    · rfl
    · exact absurd hs.2 (by simp [hr])
  | news hf =>
    rcases takeNews_next e with rfl | ⟨-, rest, ⟨-, rfl⟩ | ⟨hs, -⟩⟩
    · rfl
    · rfl
    · simp [hr] at hs
  | bus hf =>
    rcases whenRunning_next e with ⟨-, rfl⟩ | ⟨-, rfl⟩
    · rfl
    · refine (hf s).lease.resolve_right ?_
      rintro ⟨p, hp, -⟩
      simp [noticeEntry_notReady (hg.2.2.2 hr)] at hp
  | owner hf =>
    rcases serve_next e with rfl | ⟨ha, rfl⟩
    · rfl
    · rw [State.putReply_lease, (hf s).gate (passes_of_not_ready hg hr ha)]
  | frame _ hf =>
    cases e
    exact hf.lease
  | scan _ hf =>
    rcases whenRunning_next e with ⟨-, rfl⟩ | ⟨-, rfl⟩
    · rfl
    · rcases hf s with h | ⟨st, -, -, -, h⟩ <;> rw [h]
      rfl
  | rewrite _ hf =>
    rcases whenRunning_next e with ⟨-, rfl⟩ | ⟨-, rfl⟩
    · rfl
    · rw [(hf s).of_scanning (isScanning_of_not_ready hg hr)]

/-- Settles O4: the events of a part that does not run, or is not ready, do not occur, effect by effect. -/
theorem partNotRunningOrNotReadyTakesNoCommand : Obligations.PartNotRunningOrNotReadyTakesNoCommand := by
  unfold Obligations.PartNotRunningOrNotReadyTakesNoCommand
  refine ⟨fun c s hp hc => exec_not_running hp hc, fun c s t hg hr hreset hloss hscan h => ?_⟩
  rcases rebuilds_cases c with ⟨spd, cut, rfl⟩ | ⟨cut, rfl⟩ | rfl | rfl | ⟨ps, sent, outbid, rfl⟩ | ⟨hr', he⟩
  · exact absurd rfl (hreset spd cut)
  · exact absurd rfl (hloss cut)
  · cases h
    split <;> rfl
  · exact absurd rfl hscan
  · rcases serve_next h with rfl | ⟨ha, -⟩
    · rfl
    · cases passes_of_not_ready hg hr ha
  · exact (exec_effect s hr' he).lease_of_not_ready h hg hr

/-! ### O56: the reply and the gate -/

/-- What an effect does to the host port: nothing, a reply of its owner, or a frame. -/
theorem Effect.port {c : Instr} {s t : State} {r : Result} (h : Effect c s r) (e : r = .next t) :
    t.port = s.port ∨ (∃ r, Formed r.status r.data ∧ t.port = { s.port with buffer := .ready r }) ∨ FrameStep s t := by
  cases h with
  | absent =>
    cases e
    exact .inl rfl
  | event hf =>
    rcases whenReady_next e with ⟨-, rfl⟩ | ⟨-, rfl⟩
    · exact .inl rfl
    · exact .inl (hf s).frame.port
  | news hf =>
    rcases takeNews_next e with rfl | ⟨-, rest, ⟨-, rfl⟩ | ⟨-, rfl⟩⟩
    · exact .inl rfl
    · exact .inl rfl
    · exact .inl (hf (taken s rest)).frame.port
  | bus hf =>
    rcases whenRunning_next e with ⟨-, rfl⟩ | ⟨-, rfl⟩
    · exact .inl rfl
    · exact .inl (hf s).port
  | @owner code ps own hf =>
    rcases serve_next e with rfl | ⟨-, rfl⟩
    · exact .inl rfl
    · have hp : (own s).state.port = s.port :=
        (hf s).moves.elim (fun hm => hm.frame.port) fun ⟨_, _, _, hm⟩ => hm.frame.port
      exact .inr (.inl ⟨⟨_, code.byte, _⟩, (hf s).formed, by rw [← hp]; rfl⟩)
  | frame _ hf =>
    cases e
    exact .inr (.inr hf)
  | scan _ hf =>
    rcases whenRunning_next e with ⟨-, rfl⟩ | ⟨-, rfl⟩
    · exact .inl rfl
    · rcases hf s with h | ⟨st, -, -, -, h⟩ <;> rw [h]
      · exact .inl rfl
      · exact .inl rfl
  | rewrite _ hf =>
    rcases whenRunning_next e with ⟨-, rfl⟩ | ⟨-, rfl⟩
    · exact .inl rfl
    · rcases (hf s).moves c with h | ⟨st, -, -, hm⟩
      · exact .inl (by rw [h])
      · exact .inl hm.frame.port

/-- A formed reply keeps the law of the reply. -/
theorem replyLaw_of_reply {s t : State} (hs : ReplyLaw s) (hp : t.power = s.power) {r : Reply}
    (hf : Formed r.status r.data) (h : t.port = { s.port with buffer := .ready r }) : ReplyLaw t := by
  refine ⟨fun r' hr => ?_, fun hn => ?_⟩
  · rw [h] at hr
    cases hr
    exact ⟨hf.bound, hf.refused, hf.bare⟩
  · rw [h] at hn ⊢
    rw [hp]
    exact hs.2 hn

theorem FrameStep.replyLaw {s t : State} (h : FrameStep s t) (hs : ReplyLaw s) : ReplyLaw t := by
  refine ⟨fun r hr => ?_, h.frame hs.2⟩
  rcases h.reply r hr with h | hf
  · exact hs.1 r h
  · exact ⟨hf.bound, hf.refused, hf.bare⟩

theorem replyLaw_congr {s t : State} (hs : ReplyLaw s) (hp : t.power = s.power) (h : t.port = s.port) : ReplyLaw t := by
  unfold ReplyLaw
  rw [h, hp]
  exact hs

/-- With the buffer empty and no frame taken up the law of the reply holds. -/
theorem replyLaw_of_empty {s : State} (hb : s.port.buffer = .empty) (hf : s.port.frame = none) : ReplyLaw s :=
  ⟨fun r hr => by simp [hb] at hr, fun h => absurd hf h⟩

theorem Rebuild.replyLaw {s t : State} (h : Rebuild s t) (hs : ReplyLaw s) : ReplyLaw t := by
  cases h with
  | absent => exact hs
  | lost fast cut hp => exact replyLaw_of_empty rfl rfl
  | began hp =>
    have hf : s.port.frame = none := by
      by_contra hn
      have hrun := (hs.2 hn).1
      simp [hp] at hrun
    exact ⟨hs.1, fun hn => absurd hf hn⟩
  | ended o hp => exact replyLaw_congr hs rfl rfl
  | restarted ha => exact replyLaw_of_reply hs rfl (r := ⟨.ok, _, []⟩) (formed_ok (by simp)) rfl
  | refused ha => exact replyLaw_of_reply hs rfl (r := ⟨.badParam, _, []⟩) (formed_bare nofun) rfl

theorem exec_replyLaw {c : Instr} {s t : State} (hs : ReplyLaw s) (h : exec c s = .next t) : ReplyLaw t := by
  rcases exec_cases h with he | ⟨-, hr⟩
  · have hp := (he.leads rfl).power
    rcases he.port rfl with h | ⟨r, hf, h⟩ | h
    · exact replyLaw_congr hs hp h
    · exact replyLaw_of_reply hs hp hf h
    · exact h.replyLaw hs
  · exact hr.replyLaw hs

/-- The gate law over what an effect keeps: power, readiness, whether the store scans, and the lease engine before it is
ready. -/
theorem gateLaw_of {s t : State} (hs : GateLaw s) (hp : t.power = s.power) (hr : t.lease.ready = s.lease.ready)
    (hscan : t.store.isScanning ↔ s.store.isScanning)
    (hbuf : t.lease.ready = false → ∀ c ps, t.port.buffer = .pending c ps → c.passesGate = true)
    (hl : s.lease.ready = false → t.lease = s.lease) : GateLaw t := by
  obtain ⟨h1, h2, -, h4⟩ := hs
  have hno : ∀ st : Store, (∀ p, st.mode ≠ .scanning p) ↔ ¬ st.isScanning := fun st => by simp [Store.isScanning]
  refine ⟨fun h => ?_, ?_, hbuf, fun h => ?_⟩
  · rw [hr]
    exact h1 (hp ▸ h)
  · rw [hr, h2, hno, hno, hscan]
  · rw [hr] at h
    rw [hl h, h4 h]

/-- A lease engine that is ready in a part that runs and does not scan. -/
theorem gateLaw_of_ready {s : State} (hp : s.power = .running) (hr : s.lease.ready = true) (hs : ¬ s.store.isScanning) :
    GateLaw s :=
  ⟨fun h => absurd hp h, iff_of_true hr fun p hm => hs ⟨p, hm⟩, fun h => by simp [hr] at h, fun h => by simp [hr] at h⟩

theorem Effect.gateLaw {c : Instr} {s t : State} (h : Effect c s (.next t)) (hs : GateLaw s) : GateLaw t := by
  obtain ⟨hp, st, u, -, hscan, hm, hl, hst⟩ := h.leads rfl
  have hr : t.lease.ready = s.lease.ready := by rw [hl, hm.frame.ready]; rfl
  refine gateLaw_of hs hp hr ?_ (fun hf code ps hb => ?_) (h.lease_of_not_ready rfl hs)
  · rw [hst, hm.frame.store]
    exact hscan
  · rw [hr] at hf
    rcases h.port rfl with h | ⟨r, -, h⟩ | h
    · exact hs.2.2.1 hf code ps (h ▸ hb)
    · rw [h] at hb
      cases hb
    · exact (h.pending code ps hb).elim (hs.2.2.1 hf code ps) fun hg => hg hf

theorem not_isScanning_settled {st : Store} (h : st.mode = st.settledMode) : ¬ st.isScanning := by
  rintro ⟨p, hp⟩
  rw [hp] at h
  rcases st.settledMode_cases with h' | h' <;> simp [h'] at h

theorem Rebuild.gateLaw {s t : State} (h : Rebuild s t) (hs : GateLaw s) : GateLaw t := by
  cases h with
  | absent => exact hs
  | lost fast cut hp =>
    exact ⟨fun _ => rfl, iff_of_false nofun fun h => h _ rfl, fun _ => nofun, fun _ => rfl⟩
  | began hp =>
    have hr : s.lease.ready = false := hs.1 (by simp [hp])
    exact ⟨fun h => absurd rfl h, iff_of_false (by simp [hr]) fun h => h _ rfl, hs.2.2.1, hs.2.2.2⟩
  | ended o hp => exact gateLaw_of_ready hp rfl (not_isScanning_settled rfl)
  | restarted ha =>
    refine gateLaw_of_ready ha.1 rfl fun ⟨p, hp⟩ => ?_
    have hr : s.lease.ready = false := by
      by_contra hn
      exact hs.2.1.1 (by simpa using hn) p hp
    cases passes_of_not_ready hs hr ha
  | refused ha => exact gateLaw_of hs rfl rfl .rfl (fun _ => nofun) fun _ => rfl

theorem exec_gateLaw {c : Instr} {s t : State} (hs : GateLaw s) (h : exec c s = .next t) : GateLaw t := by
  rcases exec_cases h with he | ⟨-, hr⟩
  · exact he.gateLaw hs
  · exact hr.gateLaw hs

theorem gateLaw_withPending {s : State} (q : List Instr) (hs : GateLaw s) : GateLaw (s.withPending q) := hs

theorem gateLaw_millisecond {s : State} (hs : GateLaw s) : GateLaw s.millisecond := by
  have hm := (moves_millisecond (.expiry 0) s).frame
  refine gateLaw_of hs hm.power hm.ready (by rw [hm.store]) (fun hf => ?_) fun hf => ?_
  · rw [hm.port]
    exact hs.2.2.1 (hm.ready ▸ hf)
  · simp [State.millisecond, hf]

/-- Settles O56: an effect on the port is a formed reply or a frame; readiness changes only with a rebuilding. -/
theorem replyAndGateLawsAreKept : Obligations.ReplyAndGateLawsAreKept := by
  unfold Obligations.ReplyAndGateLawsAreKept
  refine ⟨fun s t hs h => ?_, fun s t hs h => ?_⟩
  · refine step_keeps (P := ReplyLaw) (fun _ _ hs => hs) (fun s hs => ?_) (fun _ _ _ => exec_replyLaw) hs h
    have hm := (moves_millisecond (.expiry 0) s).frame
    exact replyLaw_congr hs hm.power hm.port
  · exact step_keeps (P := GateLaw) (fun _ q => gateLaw_withPending q) (fun _ => gateLaw_millisecond)
      (fun _ _ _ => exec_gateLaw) hs h

end Sys2Proof.Machine
end

section
/-! PROOFS. The outcome of a rewrite (O51): what becomes of the shadow, of the pinned flags and of the address that ceases to
be pinned. -/

namespace Sys2Proof.Machine

open Sys2Proof.Safety

/-! ### The shadow and the pinned flags after an outcome -/

theorem Store.settled_superseded (st : Store) (r : Rewrite) (o : RewriteOutcome) : (st.settled r o).superseded = none := by
  rcases st.settledMode_cases with h | h <;> simp [Store.superseded, Store.settled, h]

theorem Store.settled_pinned {st : Store} {r : Rewrite} {o : RewriteOutcome} {p : Pool} :
    (st.settled r o).pinned p = true ↔
      ∃ (k : BindSlot) (b : Binding), (st.settled r o).shadow[k] = some b ∧ b.addr = p := by
  rw [Store.pinned_iff, Store.settled_superseded]
  simp

/-- A binding after an outcome was there before, or a failed Bind has put it back (R134, R135, R137). -/
theorem settle_eq_some {c : Change} {success : Bool} {v : Vector (Option Binding) 32} {k : BindSlot} {b : Binding}
    (h : (c.settle success v)[k] = some b) :
    v[k] = some b ∨ success = false ∧ ∃ after old, c = .bind k (some b) after old := by
  cases c with
  | bind j before after old =>
    cases success with
    | true => exact .inl h
    | false =>
      rw [Change.settle, getElem_shadow_set] at h
      split at h
      · subst k
        exact .inr ⟨rfl, after, old, by rw [h]⟩
      · exact .inl h
  | unbind j before =>
    cases success with
    | true =>
      rw [Change.settle, getElem_shadow_set] at h
      split at h
      · cases h
      · exact .inl h
    | false => exact .inl h

/-- A binding before an outcome stays, or it is the one of the changed slot, whose address the outcome may unpin. -/
theorem settle_of_some {st : Store} (hl : ChangeLaw st) {r : Rewrite} (hm : st.mode = .rewriting r) (success : Bool)
    {k : BindSlot} {b : Binding} (h : st.shadow[k] = some b) :
    (r.change.settle success st.shadow)[k] = some b ∨ r.change.unpins success = some b.addr := by
  have hr := hl r hm
  cases hc : r.change with
  | bind j before after old =>
    rw [hc] at hr
    cases success with
    | true => exact .inl h
    | false =>
      rw [Change.settle, getElem_shadow_set]
      split
      · subst k
        rw [hr.1] at h
        cases h
        exact .inr rfl
      · exact .inl h
  | unbind j before =>
    rw [hc] at hr
    cases success with
    | true =>
      rw [Change.settle, getElem_shadow_set]
      split
      · subst k
        rw [hr] at h
        cases h
        exact .inr rfl
      · exact .inl h
    | false => exact .inl h

/-- The superseded address of a move belongs to the binding that the move replaces (R124). -/
theorem superseded_eq_some {st : Store} (hl : ChangeLaw st) {r : Rewrite} (hm : st.mode = .rewriting r) {p : Pool} :
    st.superseded = some p ↔ ∃ k b after, r.change = .bind k (some b) after (some p) ∧ b.addr = p ∧ p ≠ after.addr := by
  have hr := hl r hm
  simp only [Store.superseded, hm]
  cases hc : r.change with
  | bind k before after old =>
    rw [hc] at hr
    obtain ⟨-, hold, -⟩ := hr
    constructor
    · rintro rfl
      cases before with
      | none => cases hold
      | some b =>
        rw [supersededBy] at hold
        split at hold
        · cases hold
        · cases hold
          exact ⟨k, b, after, rfl, rfl, ‹_›⟩
    · rintro ⟨_, _, _, h, -, -⟩
      cases h
      rfl
  | unbind k before => simp

/-- The pinned flag after an outcome was set before it (R134, R135, R137). -/
theorem pinned_of_settled {st : Store} (hl : ChangeLaw st) {r : Rewrite} (hm : st.mode = .rewriting r) {o : RewriteOutcome}
    {p : Pool} (h : (st.settled r o).pinned p = true) : st.pinned p = true := by
  obtain ⟨k, b, hk, rfl⟩ := Store.settled_pinned.1 h
  rcases settle_eq_some hk with hk | ⟨-, after, old, hc⟩
  · exact Store.pinned_iff.2 (.inl ⟨k, b, hk, rfl⟩)
  · have hr := hl r hm
    rw [hc] at hr
    obtain ⟨hafter, hold, -⟩ := hr
    by_cases ha : b.addr = after.addr
    · exact Store.pinned_iff.2 (.inl ⟨k, after, hafter, ha.symm⟩)
    · refine Store.pinned_iff.2 (.inr ((superseded_eq_some hl hm).2 ⟨k, b, after, ?_, rfl, ha⟩))
      rw [hc, hold, supersededBy, if_neg ha]

/-- A pinned flag stays set through an outcome, but for the address that it may unpin. -/
theorem settled_or_unpins {st : Store} (hl : ChangeLaw st) {r : Rewrite} (hm : st.mode = .rewriting r) (o : RewriteOutcome)
    {p : Pool} (h : st.pinned p = true) :
    (st.settled r o).pinned p = true ∨ r.change.unpins (o != RewriteOutcome.failed) = some p := by
  rcases Store.pinned_iff.1 h with ⟨k, b, hk, rfl⟩ | h
  · exact (settle_of_some hl hm _ hk).imp_left fun hk => Store.settled_pinned.2 ⟨k, b, hk, rfl⟩
  · obtain ⟨k, b, after, hc, rfl, -⟩ := (superseded_eq_some hl hm).1 h
    cases ho : o != RewriteOutcome.failed with
    | true =>
      right
      rw [hc]
      rfl
    | false =>
      refine .inl (Store.settled_pinned.2 ⟨k, b, ?_, rfl⟩)
      simp only [Store.settled, hc, ho, Change.settle]
      rw [getElem_shadow_set, if_pos rfl]

/-- The address that an outcome may unpin is pinned before it. -/
theorem pinned_of_unpins {st : Store} (hl : ChangeLaw st) {r : Rewrite} (hm : st.mode = .rewriting r) {success : Bool}
    {p : Pool} (h : r.change.unpins success = some p) : st.pinned p = true := by
  have hr := hl r hm
  rw [Store.pinned_iff]
  cases hc : r.change with
  | bind k before after old =>
    rw [hc] at h hr
    cases success with
    | true =>
      right
      simp only [Store.superseded, hm, hc]
      exact h
    | false =>
      cases h
      exact .inl ⟨k, after, hr.1, rfl⟩
  | unbind k b =>
    rw [hc] at h hr
    cases success with
    | true =>
      cases h
      exact .inl ⟨k, b, hr, rfl⟩
    | false => cases h

/-! ### The address that ceases to be pinned (R14) -/

/-- The lease of an address that has ceased to be pinned: RESERVED goes to FREE, every other stays (R14). -/
def Lease.unpinned (l : Lease) : Lease := if l = .reserved then .free none else l

theorem State.ceasePinned_spec (s : State) {p : Pool} (h : s.store.pinned p = false) :
    s.ceasePinned p = moved s p (s.leaseOf p).unpinned
      (if s.leaseOf p = .reserved then s.lease.freeList ++ [p] else s.lease.freeList) s.lease.slots := by
  unfold State.ceasePinned
  rw [if_neg (by simp [h])]
  split
  · rename_i hl
    rw [State.changeLease_eq_moved, moveInFreeList_tail (by rw [hl]; rfl) rfl, hl]
    rfl
  · rename_i hl
    rw [Lease.unpinned, if_neg hl, if_neg hl]
    rfl

theorem State.entry_moved (s : State) (p q : Pool) (l : Lease) (fl : List Pool)
    (slots : Vector (Option OfferSlot) 8) :
    (moved s p l fl slots).entry q = if q = p then { s.entry p with lease := l, mark := true } else s.entry q := by
  by_cases h : q = p
  · simp [h, moved, State.entry]
  · rw [if_neg h]
    exact Vector.getElem_set_ne p.isLt q.isLt (Fin.val_ne_of_ne (Ne.symm h))

/-- What the outcome of a rewrite does to the lease engine: the address that it unpins, if any, ceases to be pinned. -/
theorem State.rewriteOutcome_cases (s : State) (r : Rewrite) (o : RewriteOutcome) :
    (∃ p, r.change.unpins (o != RewriteOutcome.failed) = some p ∧ (s.store.settled r o).pinned p = false ∧
      s.rewriteOutcome r o = (moved (s.withStore (s.store.settled r o)) p (s.leaseOf p).unpinned
        (if s.leaseOf p = .reserved then s.lease.freeList ++ [p] else s.lease.freeList) s.lease.slots).raise .store) ∨
    (∀ p, r.change.unpins (o != RewriteOutcome.failed) = some p → (s.store.settled r o).pinned p = true) ∧
      s.rewriteOutcome r o = (s.withStore (s.store.settled r o)).raise .store := by
  rw [State.rewriteOutcome_eq]
  cases hu : r.change.unpins (o != RewriteOutcome.failed) with
  | none => exact .inr ⟨nofun, rfl⟩
  | some p =>
    dsimp only
    cases hp : (s.store.settled r o).pinned p with
    | false =>
      left
      refine ⟨p, rfl, hp, ?_⟩
      rw [State.ceasePinned_spec (s.withStore (s.store.settled r o)) hp]
      rfl
    | true =>
      right
      refine ⟨fun q hq => by cases hq; exact hp, ?_⟩
      rw [State.ceasePinned_pinned (s.withStore (s.store.settled r o)) p hp]

/-- Of a list of all addresses a test that only one can pass keeps that one or none. -/
theorem filter_finRange_unique {n : Nat} {f : Fin n → Bool} (p : Fin n) (h : ∀ q, f q = true → q = p) :
    (List.finRange n).filter f = if f p then [p] else [] := by
  cases hp : f p with
  | true =>
    have he : ∀ q ∈ List.finRange n, f q = (q == p) := fun q _ => by
      by_cases hq : q = p
      · simp [hq, hp]
      · rw [beq_eq_false_iff_ne.2 hq]
        exact eq_false_of_ne_true fun e => hq (h q e)
    rw [List.filter_congr he, List.filter_beq, List.count_eq_one_of_mem (List.nodup_finRange n) (List.mem_finRange p)]
    rfl
  | false =>
    rw [List.filter_eq_nil_iff.2]
    · rfl
    · intro q _ hq
      rw [h q hq, hp] at hq
      cases hq

/-- How a rewrite ends in a state (R141): its store, and the entry that has ceased to be pinned. -/
structure EndsIn (s : State) (r : Rewrite) (st : Store) (o : RewriteOutcome) (t : State) : Prop where
  pending : t.pending = s.pending
  power : t.power = s.power
  port : t.port = s.port
  bus : t.bus = s.bus
  att : t.att = { s.att with latched := { s.att.latched with store := true } }
  store : t.store = st.settled r o
  unpinned : ∀ p, s.store.pinned p = true → t.store.pinned p = false →
    t.entry p = { s.entry p with lease := (s.leaseOf p).unpinned, mark := true }
  others : ∀ p, (s.store.pinned p = true → t.store.pinned p = true) → t.entry p = s.entry p
  freeList : t.lease.freeList = s.lease.freeList ++ (List.finRange 112).filter (fun p =>
    s.store.pinned p && !t.store.pinned p && decide (s.leaseOf p = .reserved))
  slots : t.lease.slots = s.lease.slots
  clock : t.lease.clock = s.lease.clock
  window : t.lease.window = s.lease.window

/-- A store in the midst of a rewrite, with other sectors. -/
structure SameChange (st st' : Store) : Prop where
  shadow : st'.shadow = st.shadow
  mode : st'.mode = st.mode

theorem SameChange.changeLaw {st st' : Store} (h : SameChange st st') (hl : ChangeLaw st) : ChangeLaw st' := by
  unfold ChangeLaw
  rw [h.shadow, h.mode]
  exact hl

theorem SameChange.pinned {st st' : Store} (h : SameChange st st') (p : Pool) : st'.pinned p = st.pinned p := by
  simp only [Store.pinned, Store.bindingAt, Store.superseded, h.shadow, h.mode]

/-- Every outcome ends a rewrite in this way. -/
theorem endsIn_rewriteOutcome {s : State} {r : Rewrite} {st : Store} (o : RewriteOutcome) (hm : s.store.mode = .rewriting r)
    (hl : ChangeLaw s.store) (hst : SameChange s.store st) : EndsIn s r st o ((s.withStore st).rewriteOutcome r o) := by
  have hl' := hst.changeLaw hl
  have hm' : st.mode = .rewriting r := hst.mode.trans hm
  rcases (s.withStore st).rewriteOutcome_cases r o with ⟨p, hu, hp, h⟩ | ⟨hu, h⟩
  · rw [h]
    have only : ∀ q, s.store.pinned q = true → (st.settled r o).pinned q = false → q = p := by
      intro q hq hq'
      rcases settled_or_unpins hl' hm' o (hst.pinned q ▸ hq) with hs | hs
      · simp [hq'] at hs
      · exact Option.some_inj.1 (hs.symm.trans hu)
    have hpin : s.store.pinned p = true := hst.pinned p ▸ pinned_of_unpins hl' hm' hu
    refine ⟨rfl, rfl, rfl, rfl, rfl, rfl, fun q hq hq' => ?_, fun q hq => ?_, ?_, rfl, rfl, rfl⟩
    · obtain rfl := only q hq hq'
      exact (State.entry_moved _ _ _ _ _ _).trans (if_pos rfl)
    · refine (State.entry_moved _ _ _ _ _ _).trans (if_neg ?_)
      rintro rfl
      have h2 : (st.settled r o).pinned q = true := hq hpin
      exact absurd h2 (by simpa using hp)
    · have hf := filter_finRange_unique (f := fun q =>
        s.store.pinned q && !(st.settled r o).pinned q && decide (s.leaseOf q = .reserved)) p fun q hq => by
          simp only [Bool.and_eq_true, Bool.not_eq_true', decide_eq_true_eq] at hq
          exact only q hq.1.1 hq.1.2
      refine Eq.trans ?_ (congrArg (s.lease.freeList ++ ·) hf.symm)
      have hp' : (st.settled r o).pinned p = false := hp
      simp only [hpin, hp', Bool.not_false, Bool.and_self, Bool.true_and, decide_eq_true_eq]
      change (if s.leaseOf p = .reserved then s.lease.freeList ++ [p] else s.lease.freeList) = _
      split <;> simp
  · rw [h]
    have none : ∀ q, s.store.pinned q = true → (st.settled r o).pinned q = true := fun q hq =>
      (settled_or_unpins hl' hm' o (hst.pinned q ▸ hq)).elim id (hu q)
    refine ⟨rfl, rfl, rfl, rfl, rfl, rfl, fun q hq hq' => ?_, fun q hq => rfl, ?_, rfl, rfl, rfl⟩
    · exact absurd (none q hq) (by simpa using hq')
    · rw [List.filter_eq_nil_iff.2]
      · exact (List.append_nil _).symm
      · intro q _ hq
        simp only [Bool.and_eq_true, Bool.not_eq_true'] at hq
        exact absurd (none q hq.1.1) (by simpa using hq.1.2)

/-! ### O51: the commands that end a rewrite -/

theorem exec_validMark_ends {s : State} {r : Rewrite} (hp : s.power = .running) (hm : s.store.mode = .rewriting r)
    (hs : r.step = .mark) (hc : s.store.current[r.logical] = none) :
    exec (.validMark true) s = .next ((s.withStore ((s.store.setFlash r.target
      { s.store.flash[r.target] with mark := true }).adoptTarget r)).rewriteOutcome r .done) := by
  rw [exec, execValidMark, whenRunning_running _ hp]
  simp only [hm, hs, if_true, hc]

theorem exec_targetErase_ends {s : State} {r : Rewrite} (hp : s.power = .running) (hm : s.store.mode = .rewriting r)
    (hs : r.step = .eraseTarget) (reads : Sector) :
    exec (.targetErase reads) s = .next ((s.withStore (s.store.eraseSector r.target reads)).rewriteOutcome r .failed) := by
  rw [exec, execTargetErase, whenRunning_running _ hp]
  simp only [hm, hs, if_true]

theorem exec_supersededErase_ends {s : State} {r : Rewrite} (hp : s.power = .running) (hm : s.store.mode = .rewriting r)
    {retry : Bool} (hs : r.step = .eraseOld retry) {k : SectorId} {q : Half} (hc : s.store.current[r.logical] = some (k, q)) :
    exec (.supersededErase blankSector) s =
      .next ((s.withStore ((s.store.eraseSector k blankSector).adoptTarget r)).rewriteOutcome r .done) := by
  rw [exec, execSupersededErase, whenRunning_running _ hp]
  simp only [hm, hs, hc, if_true]
  rfl

theorem exec_supersededErase_bad {s : State} {r : Rewrite} (hp : s.power = .running) (hm : s.store.mode = .rewriting r)
    (hs : r.step = .eraseOld true) {k : SectorId} {q : Half} (hc : s.store.current[r.logical] = some (k, q))
    {reads : Sector} (hr : reads ≠ blankSector) :
    exec (.supersededErase reads) s = .next ((s.withStore ((s.store.eraseSector k reads).adoptTarget r)).rewriteOutcome r
      ((s.store.eraseSector k reads).adoptTarget r).spareOutcome) := by
  rw [exec, execSupersededErase, whenRunning_running _ hp]
  simp only [hm, hs, hc, if_true, if_neg hr]
  rfl

theorem Store.eraseSector_blank (st : Store) (k : SectorId) :
    st.eraseSector k blankSector = { st with flash := st.flash.set k blankSector, erased := st.erased.set k true } :=
  if_pos rfl

theorem Store.eraseSector_bad (st : Store) (k : SectorId) {x : Sector} (h : x ≠ blankSector) :
    st.eraseSector k x =
      { st with flash := st.flash.set k (eraseFailed (st.flash[k]) x), bad := st.bad.set k true } := if_neg h

/-- Settles O51: each of the four commands is an outcome over other sectors, and every outcome ends in the same way. -/
theorem outcomeOfARewrite : Obligations.OutcomeOfARewrite := by
  unfold Obligations.OutcomeOfARewrite
  intro s r hp hm hs goodFlash stands record Ends
  have ends : ∀ (c : Instr) (success : Bool) (st : Store) (o : RewriteOutcome),
      exec c s = .next ((s.withStore st).rewriteOutcome r o) → SameChange s.store st →
      (o != RewriteOutcome.failed) = success → st = { s.store with
        flash := st.flash, current := st.current, erased := st.erased, bad := st.bad } →
      Ends c success st.flash st.current st.erased st.bad o := by
    intro c success st o h hst ho heq
    have he := endsIn_rewriteOutcome o hm hs.2.1 hst
    refine ⟨_, h, he.pending, he.power, he.port, he.bus, he.att, ?_, he.unpinned, he.others, he.freeList, he.slots,
      he.clock, he.window⟩
    rw [he.store, Store.settled, ho]
    obtain ⟨change, target, seq, stp⟩ := r
    rw [heq]
    cases change <;> cases success <;> rfl
  refine ⟨fun h hc => ?_, fun h => ?_, fun reads h hr => ⟨eraseFailed (s.store.flash[r.target]) reads, ?_⟩, fun retry k q h hc => ?_, fun reads k q h hc hr =>
    ⟨eraseFailed (s.store.flash[k]) reads, ?_⟩⟩
  · exact ends _ true _ .done (exec_validMark_ends hp hm h hc) ⟨rfl, rfl⟩ rfl rfl
  · have hx := exec_targetErase_ends hp hm h blankSector
    rw [Store.eraseSector_blank] at hx
    exact ends _ false _ .failed hx ⟨rfl, rfl⟩ rfl rfl
  · have hx := exec_targetErase_ends hp hm h reads
    rw [Store.eraseSector_bad _ _ hr] at hx
    exact ends _ false _ .failed hx ⟨rfl, rfl⟩ rfl rfl
  · have hx := exec_supersededErase_ends hp hm h hc
    rw [Store.eraseSector_blank] at hx
    exact ends _ true _ .done hx ⟨rfl, rfl⟩ rfl rfl
  · have hx := exec_supersededErase_bad hp hm h hc hr
    rw [Store.eraseSector_bad _ _ hr] at hx
    refine ends _ true _ _ hx ⟨rfl, rfl⟩ ?_ rfl
    unfold Store.spareOutcome
    split <;> rfl

end Sys2Proof.Machine
end

section
/-! PROOFS. An accepted Bind (O47): its store, its early effects on the address and on the other holding of the tag. -/

namespace Sys2Proof.Machine

open Sys2Proof.Safety

/-! ### The store of an accepted Bind -/

theorem Store.slotOf_eq_none {st : Store} {t : Tag} (h : st.slotOf t = none) {k : BindSlot} {b : Binding}
    (hb : st.shadow[k] = some b) : b.tag ≠ t := by
  have hk := List.find?_eq_none.1 h k (List.mem_finRange k)
  simpa [hb] using hk

/-- The slot that a Bind takes: that of the tag's binding, or an empty one for a tag without a binding (R124). -/
theorem Store.bindSlot_eq_some {st : Store} {t : Tag} {k : BindSlot} (h : st.bindSlot t = some k) :
    (∃ b, st.shadow[k] = some b ∧ b.tag = t) ∨
      st.shadow[k] = none ∧ ∀ (j : BindSlot) (b : Binding), st.shadow[j] = some b → b.tag ≠ t := by
  unfold Store.bindSlot at h
  cases hs : st.slotOf t with
  | some j =>
    rw [hs] at h
    cases h
    exact .inl (Store.slotOf_eq_some hs)
  | none =>
    rw [hs] at h
    have hk := List.find?_some (h : st.emptySlot = some k)
    exact .inr ⟨by simpa using hk, fun j b hb => Store.slotOf_eq_none hs hb⟩

theorem Store.boundToOther_eq_false {st : Store} {t : Tag} {a : Pool} : st.boundToOther t a = false ↔
    ∀ (k : BindSlot) (b : Binding), st.shadow[k] = some b → b.addr = a → b.tag = t := by
  unfold Store.boundToOther
  rw [List.any_eq_false]
  constructor
  · intro h k b hb ha
    have := h k (List.mem_finRange k)
    simpa [hb, ha] using this
  · intro h k _
    cases hb : st.shadow[k] with
    | none => simp
    | some b => simpa using h k b hb

/-- No slot but the one that a Bind takes has its tag or its address. -/
theorem others_differ {st : Store} (hs : ShadowLaw st) {b : BindParams} {k : BindSlot} (hk : st.bindSlot b.tag = some k)
    (hb : st.boundToOther b.tag b.addr = false) {j : BindSlot} {d : Binding} (hj : j ≠ k) (hd : st.shadow[j] = some d) :
    d.tag ≠ b.tag ∧ d.addr ≠ b.addr := by
  have htag : d.tag ≠ b.tag := by
    rcases Store.bindSlot_eq_some hk with ⟨x, hx, ht⟩ | ⟨-, hn⟩
    · exact fun e => hj (hs j k d x hd hx (.inl (e.trans ht.symm)))
    · exact hn j d hd
  exact ⟨htag, fun e => htag (Store.boundToOther_eq_false.1 hb j d hd e)⟩

theorem State.boundStore_shadow (s : State) (k : BindSlot) (b : BindParams) (target : SectorId) (j : BindSlot) :
    (s.boundStore k b target).shadow[j] = if j = k then some ⟨b.tag, b.addr, b.cls⟩ else s.store.shadow[j] :=
  getElem_shadow_set s.store.shadow j k _

theorem State.boundStore_superseded (s : State) (k : BindSlot) (b : BindParams) (target : SectorId) :
    (s.boundStore k b target).superseded = supersededBy (s.store.shadow[k]) b.addr := rfl

theorem superseded_ready {st : Store} (h : st.mode = .ready) : st.superseded = none := by
  simp [Store.superseded, h]

theorem supersededBy_eq_some {x : Option Binding} {a p : Pool} :
    supersededBy x a = some p ↔ ∃ b, x = some b ∧ b.addr = p ∧ p ≠ a := by
  cases x with
  | none => simp [supersededBy]
  | some b =>
    by_cases h : b.addr = a
    · subst a
      simpa [supersededBy] using Eq.symm
    · simp only [supersededBy, if_neg h, Option.some.injEq, exists_eq_left']
      exact ⟨fun e => ⟨e, e ▸ h⟩, fun e => e.1⟩

/-- A Bind changes no pinned flag but that of its address (R12). -/
theorem State.boundStore_pinned_ne {s : State} (hm : s.store.mode = .ready) (k : BindSlot) (b : BindParams) (target : SectorId)
    {p : Pool} (hp : p ≠ b.addr) : (s.boundStore k b target).pinned p = s.store.pinned p := by
  rw [Bool.eq_iff_iff, Store.pinned_iff, Store.pinned_iff, superseded_ready hm, State.boundStore_superseded,
    supersededBy_eq_some]
  constructor
  · rintro (⟨j, d, hj, hd⟩ | ⟨d, hd, ha, -⟩)
    · rw [State.boundStore_shadow] at hj
      split at hj
      · cases hj
        exact absurd hd.symm hp
      · exact .inl ⟨j, d, hj, hd⟩
    · exact .inl ⟨k, d, hd, ha⟩
  · rintro (⟨j, d, hj, hd⟩ | h)
    · by_cases hjk : j = k
      · subst j
        exact .inr ⟨d, hj, hd, hp⟩
      · exact .inl ⟨j, d, by rw [State.boundStore_shadow, if_neg hjk, hj], hd⟩
    · cases h

/-! ### The early effect on the address (R132) -/

/-- The lease of a bound address: kept where the tag holds it, RESERVED otherwise (R132). -/
def Lease.bound (l : Lease) (t : Tag) : Lease := if l.holder = some t then l else .reserved

/-- The notice for the tag that loses a lease to a Bind (R132). -/
def Entry.evictBound (e : Entry) (t : Tag) : EvictDue :=
  match e.lease with
  | .live u _ _ => if u = t then e.evict else .waiting u .pinned
  | .stale u _ _ _ => if u = t then e.evict else .waiting u .pinned
  | _ => e.evict

/-- The entry of a bound address (R10, R132). -/
def Entry.bound (e : Entry) (t : Tag) (wasPinned : Bool) : Entry :=
  { e with
    lease := e.lease.bound t
    evict := e.evictBound t
    mark := e.mark || !wasPinned || decide (e.lease.bound t ≠ e.lease) }

/-- The bus engine after the early effect on the address: the REFUSE(REVOKED) of an offer to another tag (R96, R132). -/
def State.firstNotice (s : State) (t : Tag) (a : Pool) : State :=
  match s.leaseOf a with
  | .offered u _ _ => if u = t then s else revoked s u
  | _ => s

/-- Everything that the early effect does to the lease engine and the bus engine. -/
structure EarlyEffect (s : State) (t : Tag) (a : Pool) (wasPinned : Bool) (u : State) : Prop where
  entry : u.entry a = (s.entry a).bound t wasPinned
  others : ∀ p, p ≠ a → u.entry p = s.entry p
  freeList : u.lease.freeList = if (s.leaseOf a).isFree then s.lease.freeList.erase a else s.lease.freeList
  slots : u.lease.slots = if (s.leaseOf a).holder = some t then s.lease.slots else emptiedSlots s.lease.slots (s.leaseOf a)
  timing : u.lease.timing = s.lease.timing
  clock : u.lease.clock = s.lease.clock
  bus : u.bus = (s.firstNotice t a).bus
  pending : u.pending = s.pending
  att : u.att = s.att

theorem State.firstNotice_eq {s : State} {t : Tag} {a : Pool} (h : ∀ u c k, s.leaseOf a ≠ .offered u c k) :
    s.firstNotice t a = s := by
  unfold State.firstNotice
  split
  · exact absurd ‹_› (h _ _ _)
  · rfl

theorem revoked_bus_congr {s u : State} (h : u.bus = s.bus) (t : Tag) : (revoked u t).bus = (revoked s t).bus := by
  unfold revoked
  rw [h]
  split <;> simp [queued, h]

theorem setEntry_evict_same {s : State} {a : Pool} {x : EvictDue} (h : x = (s.entry a).evict) :
    s.setEntry a { s.entry a with evict := x } = s := by
  subst x
  exact congrArg (fun v => s.withLease { s.lease with table := v }) (Vector.set_getElem_self a.isLt)

/-- The lease stays: only the mark can change. -/
theorem earlyEffect_kept {s : State} {t : Tag} {a : Pool} {wp : Bool} (hl : (s.leaseOf a).bound t = s.leaseOf a)
    (he : (s.entry a).evictBound t = (s.entry a).evict) (hf : (s.leaseOf a).isFree = false)
    (hs : (s.leaseOf a).holder = some t ∨ (s.leaseOf a).slot = none)
    (hn : s.firstNotice t a = s) : EarlyEffect s t a wp (s.markIfNewlyPinned a wp) := by
  have hslots : s.lease.slots =
      if (s.leaseOf a).holder = some t then s.lease.slots else emptiedSlots s.lease.slots (s.leaseOf a) := by
    split
    · rfl
    · rw [emptiedSlots, hs.resolve_left ‹_›]
  have hb : (s.entry a).bound t wp = { s.entry a with mark := (s.entry a).mark || !wp } := by
    have hl' : (s.entry a).lease.bound t = (s.entry a).lease := hl
    simp [Entry.bound, hl', he]
  cases wp with
  | true =>
    refine ⟨?_, fun _ _ => rfl, by rw [hf]; rfl, hslots, rfl, rfl, by rw [hn]; rfl, rfl, rfl⟩
    rw [hb]
    simp [State.markIfNewlyPinned]
  | false =>
    refine ⟨?_, fun p hp => ?_, by rw [hf]; rfl, hslots, rfl, rfl, by rw [hn]; rfl, rfl, rfl⟩
    · rw [hb]
      simp [State.markIfNewlyPinned, State.markEntry]
    · exact State.entry_setEntry_ne s _ (Ne.symm hp)

/-- The address is taken from whoever has it: RESERVED, with a notice for a lease that is lost. -/
theorem earlyEffect_reserved {s u : State} {t : Tag} {a : Pool} {wp : Bool} (hl : (s.leaseOf a).holder ≠ some t)
    (hne : s.leaseOf a ≠ .reserved)
    (hu : u.lease = ((s.setEntry a { s.entry a with evict := (s.entry a).evictBound t }).changeLease a .reserved .tail).lease)
    (hb : u.bus = (s.firstNotice t a).bus) (hpend : u.pending = s.pending) (hatt : u.att = s.att) :
    EarlyEffect s t a wp u := by
  have hl' : (s.entry a).lease.holder ≠ some t := hl
  have hne' : Lease.reserved ≠ (s.entry a).lease := Ne.symm hne
  have hself : (s.setEntry a { s.entry a with evict := (s.entry a).evictBound t }).leaseOf a = s.leaseOf a := by
    simp [State.leaseOf]
  have he : ∀ p, u.entry p = ((s.setEntry a { s.entry a with evict := (s.entry a).evictBound t }).changeLease a
      .reserved .tail).entry p := fun p => by simp only [State.entry, hu]
  refine ⟨?_, fun p hp => ?_, ?_, ?_, by rw [hu]; rfl, by rw [hu]; rfl, hb, hpend, hatt⟩
  · rw [he, State.entry_changeLease_self, State.entry_setEntry_self]
    simp [Entry.bound, Lease.bound, hl', hne']
  · rw [he, State.entry_changeLease_ne _ _ _ (Ne.symm hp), State.entry_setEntry_ne _ _ (Ne.symm hp)]
  · rw [hu, State.changeLease_lease_freeList, hself]
    rfl
  · rw [hu, State.changeLease_lease_slots, hself, if_neg hl]
    rfl

/-- The early effect on an address that is not WITHHELD, case by case (R132). -/
theorem earlyEffect_spec (s : State) (t : Tag) {a : Pool} (wp : Bool) (hw : s.leaseOf a ≠ .withheld) :
    EarlyEffect s t a wp (s.earlyEffect t a wp) := by
  have notOffered : (∀ u c k, s.leaseOf a ≠ .offered u c k) → s.firstNotice t a = s := State.firstNotice_eq
  have same : ∀ u, s.leaseOf a = .reserved ∨ (s.leaseOf a).holder = some u ∧ u = t →
      (s.entry a).evictBound t = (s.entry a).evict → s.firstNotice t a = s →
      EarlyEffect s t a wp (s.markIfNewlyPinned a wp) := by
    rintro u (h | ⟨h, rfl⟩) he hn
    · exact earlyEffect_kept (by rw [h]; rfl) he (by rw [h]; rfl) (.inr (by rw [h]; rfl)) hn
    · refine earlyEffect_kept (by rw [Lease.bound, if_pos h]) he ?_ (.inl h) hn
      cases hl : s.leaseOf a <;> simp [hl, Lease.holder, Lease.isFree, Lease.state] at h ⊢
  unfold State.earlyEffect
  split
  · rename_i l hl
    have he : (s.entry a).evictBound t = (s.entry a).evict := by
      rw [Entry.evictBound, show (s.entry a).lease = .free l from hl]
    exact earlyEffect_reserved (by rw [hl]; nofun) (by rw [hl]; nofun) (by rw [setEntry_evict_same he])
      (by rw [notOffered (by rw [hl]; nofun)]; rfl) rfl rfl
  · rename_i l d hl
    have he : (s.entry a).evictBound t = (s.entry a).evict := by
      rw [Entry.evictBound, show (s.entry a).lease = .quarantine l d from hl]
    exact earlyEffect_reserved (by rw [hl]; nofun) (by rw [hl]; nofun) (by rw [setEntry_evict_same he])
      (by rw [notOffered (by rw [hl]; nofun)]; rfl) rfl rfl
  · rename_i hl
    have he : (s.entry a).evictBound t = (s.entry a).evict := by
      rw [Entry.evictBound, show (s.entry a).lease = .reserved from hl]
    exact same t (.inl hl) he (notOffered (by rw [hl]; nofun))
  · rename_i hl
    exact absurd hl hw
  · rename_i h c k hl
    have he : (s.entry a).evictBound t = (s.entry a).evict := by
      rw [Entry.evictBound, show (s.entry a).lease = .offered h c k from hl]
    split
    · exact same h (.inr ⟨by rw [hl]; rfl, ‹_›⟩) he (by rw [State.firstNotice, hl]; exact if_pos ‹_›)
    · rename_i hne
      have hb := beside_refuseRevoked (s.changeLease a .reserved .tail) h
      refine earlyEffect_reserved (by rw [hl]; simpa [Lease.holder] using hne) (by rw [hl]; nofun)
        (by rw [hb.lease, setEntry_evict_same he]) ?_ ?_ ?_
      · rw [State.refuseRevoked_eq_revoked, State.firstNotice, hl]
        simp only [if_neg hne]
        exact revoked_bus_congr (s := s) (u := s.changeLease a .reserved .tail) rfl h
      · rw [State.refuseRevoked_eq_revoked, revoked]
        split <;> rfl
      · rw [State.refuseRevoked_eq_revoked, revoked]
        split <;> rfl
  · rename_i h c d hl
    split
    · refine same h (.inr ⟨by rw [hl]; rfl, ‹_›⟩) ?_ (notOffered (by rw [hl]; nofun))
      rw [Entry.evictBound, show (s.entry a).lease = .live h c d from hl]
      exact if_pos ‹_›
    · rename_i hne
      have he : (s.entry a).evictBound t = .waiting h .pinned := by
        rw [Entry.evictBound, show (s.entry a).lease = .live h c d from hl]
        exact if_neg hne
      exact earlyEffect_reserved (by rw [hl]; simpa [Lease.holder] using hne) (by rw [hl]; nofun) (by rw [he]; rfl)
        (by rw [notOffered (by rw [hl]; nofun)]; rfl) rfl rfl
  · rename_i h c n f hl
    split
    · refine same h (.inr ⟨by rw [hl]; rfl, ‹_›⟩) ?_ (notOffered (by rw [hl]; nofun))
      rw [Entry.evictBound, show (s.entry a).lease = .stale h c n f from hl]
      exact if_pos ‹_›
    · rename_i hne
      have he : (s.entry a).evictBound t = .waiting h .pinned := by
        rw [Entry.evictBound, show (s.entry a).lease = .stale h c n f from hl]
        exact if_neg hne
      exact earlyEffect_reserved (by rw [hl]; simpa [Lease.holder] using hne) (by rw [hl]; nofun) (by rw [he]; rfl)
        (by rw [notOffered (by rw [hl]; nofun)]; rfl) rfl rfl

/-! ### The early effect on the other holding of the tag (R133) -/

/-- The entry that a tag loses to its move: withdrawn, with a notice unless it was an offer (R133). -/
def Entry.movedAway (e : Entry) (t : Tag) (l : Lease) : Entry :=
  { e with lease := l, evict := if e.lease.state = .offered then e.evict else .waiting t .moved, mark := true }

/-- The addresses that go back to the free list with the other holding of a tag (R71, R73, R133). -/
def State.freedByMove (s : State) (t : Tag) (a : Pool) : List Pool :=
  if s.lease.timing.quarantine = 0 then
    (List.finRange 112).filter fun b => b != a && (s.leaseOf b).holder == some t && !s.store.pinned b
  else []

/-- The REFUSE(REVOKED) for an offer to the tag at another address (R96, R133). -/
def State.secondNotice (s : State) (t : Tag) (a : Pool) : State :=
  match s.otherHolding t a with
  | some b => if (s.leaseOf b).state = .offered then revoked s t else s
  | none => s

/-- Everything that the early effect on the other holding of a tag does to the lease engine and the bus engine. -/
structure MovedAway (s : State) (t : Tag) (a : Pool) (u : State) : Prop where
  entry : ∀ p, p ≠ a → (s.leaseOf p).holder = some t → u.entry p = (s.entry p).movedAway t (s.withdrawnLease p t)
  others : ∀ p, ¬ (p ≠ a ∧ (s.leaseOf p).holder = some t) → u.entry p = s.entry p
  freeList : u.lease.freeList = s.lease.freeList ++ s.freedByMove t a
  slots : ∀ k : SlotId, s.lease.slots[k] = none → u.lease.slots[k] = none
  bus : u.bus = (s.secondNotice t a).bus
  pending : u.pending = s.pending
  att : u.att = s.att

theorem State.otherHolding_eq_some {s : State} {t : Tag} {a b : Pool} (h : s.otherHolding t a = some b) :
    b ≠ a ∧ (s.leaseOf b).holder = some t := by
  simpa using List.find?_some h

theorem State.otherHolding_eq_none {s : State} {t : Tag} {a : Pool} (h : s.otherHolding t a = none) (p : Pool) :
    ¬ (p ≠ a ∧ (s.leaseOf p).holder = some t) := by
  simpa using List.find?_eq_none.1 h p (List.mem_finRange p)

theorem State.isFree_of_holder {s : State} {p : Pool} {t : Tag} (h : (s.leaseOf p).holder = some t) :
    (s.leaseOf p).isFree = false := by
  cases hl : s.leaseOf p <;> simp [hl, Lease.holder, Lease.isFree, Lease.state] at h ⊢

theorem State.withdrawnLease_isFree (s : State) (p : Pool) (t : Tag) :
    (s.withdrawnLease p t).isFree = (!s.store.pinned p && decide (s.lease.timing.quarantine = 0)) := by
  unfold State.withdrawnLease
  cases s.store.pinned p with
  | true => rfl
  | false =>
    simp only [Bool.false_eq_true, if_false, Bool.not_false, Bool.true_and]
    by_cases h : s.lease.timing.quarantine = 0
    · rw [if_pos h, decide_eq_true h]
      rfl
    · rw [if_neg h, decide_eq_false h]
      rfl

/-- Without a change of the holding's entry but its notice, a withdrawal is that of the state before. -/
theorem movedAway_withdraw {s u : State} {t : Tag} {a b : Pool} (h1 : OneHolderLaw s) (hb : s.otherHolding t a = some b)
    (hu : u.lease = ((s.setEntry b { s.entry b with
      evict := ((s.entry b).movedAway t (s.withdrawnLease b t)).evict }).withdraw b t).lease)
    (hbus : u.bus = (s.secondNotice t a).bus) (hpend : u.pending = s.pending) (hatt : u.att = s.att) : MovedAway s t a u := by
  obtain ⟨hba, hbt⟩ := State.otherHolding_eq_some hb
  have only : ∀ p, (s.leaseOf p).holder = some t → p = b := fun p hp => h1 p b t hp hbt
  have hlease : (s.setEntry b { s.entry b with
      evict := ((s.entry b).movedAway t (s.withdrawnLease b t)).evict }).leaseOf b = s.leaseOf b := by
    simp [State.leaseOf]
  rw [State.withdraw_eq] at hu
  have he : ∀ p, u.entry p = ((s.setEntry b { s.entry b with
      evict := ((s.entry b).movedAway t (s.withdrawnLease b t)).evict }).changeLease b (s.withdrawnLease b t) .tail).entry p :=
    fun p => by
      simp only [State.entry, hu]
      rfl
  refine ⟨fun p hpa hp => ?_, fun p hp => ?_, ?_, fun k hk => ?_, hbus, hpend, hatt⟩
  · obtain rfl := only p hp
    rw [he, State.entry_changeLease_self, State.entry_setEntry_self]
    rfl
  · have hpb : b ≠ p := by
      rintro rfl
      exact hp ⟨hba, hbt⟩
    rw [he, State.entry_changeLease_ne _ _ _ hpb, State.entry_setEntry_ne _ _ hpb]
  · have hfree : s.freedByMove t a = if (s.withdrawnLease b t).isFree then [b] else [] := by
      unfold State.freedByMove
      rw [filter_finRange_unique b fun q hq => by
        simp only [Bool.and_eq_true, beq_iff_eq] at hq
        exact only q hq.1.2, State.withdrawnLease_isFree]
      by_cases hq : s.lease.timing.quarantine = 0
      · rw [if_pos hq, decide_eq_true hq]
        simp [hba, hbt]
      · rw [if_neg hq, decide_eq_false hq, Bool.and_false]
        rfl
    rw [hu, State.changeLease_lease_freeList, hlease, hfree]
    change moveInFreeList s.lease.freeList b (s.leaseOf b) (s.withdrawnLease b t) .tail = _
    cases hf : (s.withdrawnLease b t).isFree with
    | true => exact moveInFreeList_tail (State.isFree_of_holder hbt) hf
    | false => exact (moveInFreeList_held _ (State.isFree_of_holder hbt) hf).trans (List.append_nil _).symm
  · rw [hu, State.changeLease_lease_slots, getElem_emptiedSlots]
    split
    · rfl
    · exact hk

theorem State.moveAway_some {s : State} {t : Tag} {a b : Pool} (h : s.otherHolding t a = some b) :
    s.moveAway t a = if (s.leaseOf b).state = .offered then (s.withdraw b t).refuseRevoked t
      else (s.setEvict b t .moved).withdraw b t := by
  simp only [State.moveAway, h]
  cases hl : s.leaseOf b <;> rfl

/-- The early effect on the other holding, where no tag has two (R133). -/
theorem moveAway_spec (s : State) (t : Tag) (a : Pool) (h1 : OneHolderLaw s) : MovedAway s t a (s.moveAway t a) := by
  cases hb : s.otherHolding t a with
  | none =>
    have hn := State.otherHolding_eq_none hb
    have hs : s.moveAway t a = s := by rw [State.moveAway, hb]
    have hfree : s.freedByMove t a = [] := by
      unfold State.freedByMove
      split
      · rw [List.filter_eq_nil_iff]
        intro p _ hp
        simp only [Bool.and_eq_true, bne_iff_ne, beq_iff_eq] at hp
        exact hn p hp.1
      · rfl
    rw [hs]
    refine ⟨fun p hpa hp => absurd ⟨hpa, hp⟩ (hn p), fun _ _ => rfl, ?_, fun _ => id, ?_, rfl, rfl⟩
    · rw [hfree, List.append_nil]
    · rw [State.secondNotice, hb]
  | some b =>
    rw [State.moveAway_some hb]
    split
    · rename_i hoff
      have hbeside := beside_refuseRevoked (s.withdraw b t) t
      refine movedAway_withdraw h1 hb ?_ ?_ ?_ ?_
      · have he : ((s.entry b).movedAway t (s.withdrawnLease b t)).evict = (s.entry b).evict := if_pos hoff
        rw [hbeside.lease, setEntry_evict_same he]
      · rw [State.refuseRevoked_eq_revoked, State.secondNotice, hb, State.withdraw_eq]
        exact (revoked_bus_congr (s := s) (u := s.changeLease b _ .tail) rfl t).trans
          (congrArg State.bus (if_pos hoff).symm)
      · rw [State.refuseRevoked_eq_revoked, revoked, State.withdraw_eq]
        split <;> rfl
      · rw [State.refuseRevoked_eq_revoked, revoked, State.withdraw_eq]
        split <;> rfl
    · rename_i hoff
      rw [State.withdraw_eq]
      refine movedAway_withdraw h1 hb ?_ ?_ rfl rfl
      · have he : ((s.entry b).movedAway t (s.withdrawnLease b t)).evict = .waiting t .moved := if_neg hoff
        rw [he, State.withdraw_eq]
        rfl
      · rw [State.secondNotice, hb]
        change s.bus = (if (s.leaseOf b).state = .offered then revoked s t else s).bus
        rw [if_neg hoff]

end Sys2Proof.Machine
end

section
/-! PROOFS. O47: the parameters of a Bind are read, its checks pass, and the two early effects make up the event. -/

namespace Sys2Proof.Machine

open Sys2Proof.Safety

/-! ### Reading the parameters of a Bind (R130 check 1, R181) -/

/-- Big-endian bytes read back, behind a number already read (R198). -/
theorem foldl_beBytes (k n m : Nat) :
    (beBytes k n).foldl (fun n b => n * 256 + b.toNat) m = m * 256 ^ k + n % 256 ^ k := by
  induction k generalizing m with
  | zero => simp [beBytes, Nat.mod_one]
  | succ k ih =>
    have hn : n % 256 ^ (k + 1) = n % 256 ^ k + 256 ^ k * (n / 256 ^ k % 2 ^ 8) := Nat.mod_pow_succ
    rw [beBytes, List.foldl_cons, ih, BitVec.toNat_ofNat, hn]
    generalize n / 256 ^ k % 2 ^ 8 = d
    ring

theorem tagOfBytes_tagBytes (t : Tag) : tagOfBytes (tagBytes t) = t := by
  apply BitVec.eq_of_toNat_eq
  have ht := t.isLt
  simp only [tagOfBytes, tagBytes, beNat, foldl_beBytes, BitVec.toNat_ofNat]
  omega

theorem poolByte_toNat (p : Pool) : (poolByte p).toNat = p.val + 0x10 := by
  have hp := p.isLt
  simp only [poolByte, BitVec.toNat_ofNat]
  omega

theorem poolOfByte_poolByte (p : Pool) : poolOfByte (poolByte p) = some p := by
  have hp := p.isLt
  have h := poolByte_toNat p
  unfold poolOfByte
  rw [dif_pos (by omega)]
  exact congrArg some (Fin.ext (by simp [h]))

theorem classOfByte_byteOf (c : ClassId) : classOfByte (byteOf c.val) = some c := by
  have hc := c.isLt
  have h : (byteOf c.val).toNat = c.val := by
    simp only [byteOf, BitVec.toNat_ofNat]
    omega
  unfold classOfByte
  rw [dif_pos (by omega)]
  exact congrArg some (Fin.ext h)

theorem bindParamsOf_bytes {t : Tag} (ht : validTag t = true) (a : Pool) (c : ClassId) (force : Bool) :
    bindParamsOf (tagBytes t ++ [poolByte a, byteOf c.val, if force then 1 else 0]) = some ⟨t, a, c, force⟩ := by
  have h6 : (tagBytes t).length = 6 := length_tagBytes t
  have hforce : forceOfByte (if force then 1 else 0) = some force := by cases force <;> rfl
  unfold bindParamsOf
  rw [List.drop_append_of_le_length (by omega), List.take_append_of_le_length (by omega),
    List.drop_of_length_le (by omega), List.take_of_length_le (by omega)]
  simp only [List.nil_append, tagOfBytes_tagBytes, ht, poolOfByte_poolByte, classOfByte_byteOf, hforce]

/-- A Bind that passes every check of R130 is accepted (R131). -/
theorem State.bind_eq_accept {s : State} {b : BindParams} {k : BindSlot} {target : SectorId} (hm : s.store.mode = .ready)
    (hk : s.store.bindSlot b.tag = some k) (ho : s.store.outrun (logicalOf k) (s.store.nextSeq (logicalOf k)) = false)
    (hb : s.store.boundToOther b.tag b.addr = false) (hw : s.leaseOf b.addr ≠ .withheld)
    (hh : ∀ u, (s.leaseOf b.addr).holder = some u → u ≠ b.tag → b.force = true)
    (hn : s.store.shadow[k] ≠ some ⟨b.tag, b.addr, b.cls⟩) (ht : s.store.lowestErased = some target) :
    s.bind b = .ok (s.acceptBind k b target) [byteOf k.val, 0x01] := by
  have held : ¬ (s.heldByOther b.tag b.addr = true ∧ b.force = false) := by
    rintro ⟨h, hf⟩
    unfold State.heldByOther at h
    split at h
    · rename_i u hu
      simp [hh u hu (by simpa using h)] at hf
    · cases h
  simp only [State.bind, hm, hk, Option.any_some, ho, hb, Bool.false_eq_true, if_false, if_neg hw, if_neg held, if_neg hn, ht]

/-! ### The event of acceptance -/

/-- Everything that the acceptance of a Bind does: the early effect on its address, and then on the other holding of its
tag. -/
structure Accepted (s : State) (k : BindSlot) (b : BindParams) (target : SectorId) (u v : State) : Prop where
  store : v.store = s.boundStore k b target
  early : EarlyEffect (s.withStore (s.boundStore k b target)) b.tag b.addr (s.store.pinned b.addr) u
  away : MovedAway u b.tag b.addr v
  frame : SameFrame (s.withStore (s.boundStore k b target)) u

theorem accepted_acceptBind {s : State} (ht : TableLaws s) (k : BindSlot) (b : BindParams) (target : SectorId)
    (hw : s.leaseOf b.addr ≠ .withheld) : ∃ u, Accepted s k b target u (s.acceptBind k b target) := by
  have hm := moves_earlyEffect (.bind []) (s := s.withStore (s.boundStore k b target)) b.tag (s.store.pinned b.addr)
    (s.boundStore_pinned k b target)
  have hu := hm.tableLaws (tableLaws_congr (s := s) rfl ht)
  exact ⟨_, (moves_acceptBind (.bind []) s k b target).frame.store, earlyEffect_spec _ _ _ hw, moveAway_spec _ _ _ hu.2.2,
    hm.frame⟩

section
variable {s u v : State} {k : BindSlot} {b : BindParams} {target : SectorId}

theorem Accepted.leaseOf_ne (h : Accepted s k b target u v) {p : Pool} (hp : p ≠ b.addr) : u.leaseOf p = s.leaseOf p :=
  congrArg Entry.lease (h.early.others p hp)

/-- The entry of the address (R132). -/
theorem Accepted.entry_addr (h : Accepted s k b target u v) :
    v.entry b.addr = (s.entry b.addr).bound b.tag (s.store.pinned b.addr) :=
  (h.away.others b.addr fun hn => hn.1 rfl).trans h.early.entry

theorem Accepted.leaseOf_addr (h : Accepted s k b target u v) : v.leaseOf b.addr = (s.leaseOf b.addr).bound b.tag :=
  congrArg Entry.lease h.entry_addr

/-- The withdrawal of the other holding reads the pinned flags of the state before (R13, R133). -/
theorem Accepted.withdrawnLease_ne (h : Accepted s k b target u v) (hm : s.store.mode = .ready) {p : Pool}
    (hp : p ≠ b.addr) (t : Tag) : u.withdrawnLease p t = s.withdrawnLease p t := by
  have hpin : u.store.pinned p = s.store.pinned p := by
    rw [h.frame.store]
    exact State.boundStore_pinned_ne hm k b target hp
  have htiming : u.lease.timing = s.lease.timing := h.early.timing
  unfold State.withdrawnLease
  rw [hpin, htiming, State.nowPlus_congr (s := s) h.early.clock]

/-- The entry of the other holding of the tag (R133). -/
theorem Accepted.entry_held (h : Accepted s k b target u v) (hm : s.store.mode = .ready) {p : Pool} (hp : p ≠ b.addr)
    (ht : (s.leaseOf p).holder = some b.tag) :
    v.entry p = (s.entry p).movedAway b.tag (s.withdrawnLease p b.tag) := by
  rw [h.away.entry p hp (by rw [h.leaseOf_ne hp, ht]), h.early.others p hp, h.withdrawnLease_ne hm hp]
  rfl

theorem Accepted.entry_other (h : Accepted s k b target u v) {p : Pool} (hp : p ≠ b.addr)
    (ht : (s.leaseOf p).holder ≠ some b.tag) : v.entry p = s.entry p := by
  rw [h.away.others p (by rw [h.leaseOf_ne hp]; exact fun hn => ht hn.2), h.early.others p hp]
  rfl

/-- The free list: without the address, and with what the other holding frees (R19, R71, R73). -/
theorem Accepted.freeList (h : Accepted s k b target u v) (hm : s.store.mode = .ready) :
    v.lease.freeList = (if (s.leaseOf b.addr).isFree then s.lease.freeList.erase b.addr else s.lease.freeList) ++
      s.freedByMove b.tag b.addr := by
  have htiming : u.lease.timing = s.lease.timing := h.early.timing
  have hfreed : u.freedByMove b.tag b.addr = s.freedByMove b.tag b.addr := by
    unfold State.freedByMove
    rw [htiming]
    split
    · refine List.filter_congr fun p _ => ?_
      by_cases hp : p = b.addr
      · simp [hp]
      · rw [h.leaseOf_ne hp, h.frame.store]
        simp only [State.withStore_store, State.boundStore_pinned_ne hm k b target hp]
    · rfl
  rw [h.away.freeList, h.early.freeList, hfreed]
  rfl

/-- The slot of an offer of the address to another tag is empty (R34). -/
theorem Accepted.slot_empty (h : Accepted s k b target u v) {t : Tag} {c : ClassId} {j : SlotId}
    (hl : s.leaseOf b.addr = .offered t c j) (ht : t ≠ b.tag) : v.lease.slots[j] = none := by
  have hl' : (s.withStore (s.boundStore k b target)).leaseOf b.addr = .offered t c j := hl
  apply h.away.slots
  rw [h.early.slots, hl', if_neg (by simpa [Lease.holder] using ht), getElem_emptiedSlots]
  exact if_pos rfl

end

/-- A bound entry is marked, unless nothing in it has changed and its address was pinned (R10). -/
theorem Entry.bound_mark (e : Entry) (t : Tag) (wp : Bool) :
    (e.bound t wp).mark = true ∨ e.bound t wp = e ∧ wp = true := by
  by_cases hl : e.lease.bound t = e.lease
  · have he : e.evictBound t = e.evict := by
      obtain ⟨l, ev, n, m⟩ := e
      cases l <;> simp [Entry.evictBound, Lease.bound, Lease.holder] at hl ⊢ <;> simp [hl]
    cases wp with
    | true => exact .inr ⟨by simp [Entry.bound, hl, he], rfl⟩
    | false => exact .inl (by simp [Entry.bound])
  · exact .inl (by simp [Entry.bound, hl])

theorem Lease.bound_of_ne {l : Lease} {t : Tag} (h : l.holder ≠ some t) : l.bound t = .reserved := if_neg h

theorem Lease.bound_of_eq {l : Lease} {t : Tag} (h : l.holder = some t) : l.bound t = l := if_pos h

/-- An entry without a lease of another tag gets no notice from a Bind of its address (R132). -/
theorem Entry.evictBound_eq {e : Entry} {t : Tag}
    (h : e.lease.holder = some t ∨ e.lease.holder = none ∨ e.lease.state = .offered) : e.evictBound t = e.evict := by
  obtain ⟨l, ev, n, m⟩ := e
  cases l <;> simp [Entry.evictBound, Lease.holder, Lease.state] at h ⊢ <;> simp [h]

/-! ### The notices of acceptance, in their order -/

/-- The REFUSE(REVOKED) that each address in turn calls for, as the statement counts them, come to one at most. -/
theorem foldl_revoked_bus {s first : State} (h1 : OneHolderLaw s) (t : Tag) (a : Pool) :
    (List.finRange 112).foldl (fun w b => if b ≠ a ∧ (s.leaseOf b).holder = some t ∧ (s.leaseOf b).state = .offered then
      revoked w t else w) first =
    match s.otherHolding t a with
    | some b => if (s.leaseOf b).state = .offered then revoked first t else first
    | none => first := by
  have hfold := List.foldl_filter (l := List.finRange 112) (init := first) (f := fun w _ => revoked w t)
    (p := fun b => decide (b ≠ a ∧ (s.leaseOf b).holder = some t ∧ (s.leaseOf b).state = .offered))
  simp only [decide_eq_true_eq] at hfold
  rw [← hfold]
  cases hb : s.otherHolding t a with
  | none =>
    rw [List.filter_eq_nil_iff.2]
    · rfl
    · intro p _ hp
      rw [decide_eq_true_eq] at hp
      exact State.otherHolding_eq_none hb p ⟨hp.1, hp.2.1⟩
  | some b =>
    obtain ⟨hba, hbt⟩ := State.otherHolding_eq_some hb
    rw [filter_finRange_unique b fun q hq => by
      rw [decide_eq_true_eq] at hq
      exact h1 q b t hq.2.1 hbt]
    simp only [hba, hbt, ne_eq, not_false_eq_true, true_and, decide_eq_true_eq]
    split <;> rfl

section
variable {s u v : State} {k : BindSlot} {b : BindParams} {target : SectorId}

/-- The tag has its other holding in the state before the Bind. -/
theorem Accepted.otherHolding (h : Accepted s k b target u v) :
    u.otherHolding b.tag b.addr = s.otherHolding b.tag b.addr := by
  unfold State.otherHolding
  congr 1
  funext p
  by_cases hp : p = b.addr
  · simp [hp]
  · rw [h.leaseOf_ne hp]

/-- The bus engine: the notice for the address first, then that for the other holding (R96, R132, R133). -/
theorem Accepted.bus (h : Accepted s k b target u v) (h1 : OneHolderLaw s) :
    v.bus = ((List.finRange 112).foldl (fun w p =>
      if p ≠ b.addr ∧ (s.leaseOf p).holder = some b.tag ∧ (s.leaseOf p).state = .offered then revoked w b.tag else w)
      (s.firstNotice b.tag b.addr)).bus := by
  have hfirst : u.bus = (s.firstNotice b.tag b.addr).bus := by
    rw [h.early.bus]
    unfold State.firstNotice
    have hl : (s.withStore (s.boundStore k b target)).leaseOf b.addr = s.leaseOf b.addr := rfl
    rw [hl]
    split
    · split
      · rfl
      · exact revoked_bus_congr (s := s) (u := s.withStore (s.boundStore k b target)) rfl _
    · rfl
  rw [h.away.bus, foldl_revoked_bus h1, State.secondNotice, h.otherHolding]
  cases hp : s.otherHolding b.tag b.addr with
  | none => exact hfirst
  | some p =>
    dsimp only
    rw [h.leaseOf_ne (State.otherHolding_eq_some hp).1]
    split
    · exact revoked_bus_congr hfirst b.tag
    · exact hfirst

end

/-- Settles O47: acceptance writes the store, and the two early effects say the rest, entry by entry. -/
theorem bindAccepted : Obligations.BindAccepted := by
  unfold Obligations.BindAccepted
  intro s t a c force k target params hasked ht hb _ hvalid hm hk ho hbound hw hh hn htarget
  have hbind : s.bind ⟨t, a, c, force⟩ = .ok (s.acceptBind k ⟨t, a, c, force⟩ target) [byteOf k.val, 0x01] :=
    State.bind_eq_accept hm hk ho (Store.boundToOther_eq_false.2 hbound) hw hh hn htarget
  have hown : ownBind params s = .ok (s.acceptBind k ⟨t, a, c, force⟩ target) [byteOf k.val, 0x01] := by
    unfold ownBind
    rw [bindParamsOf_bytes hvalid]
    exact hbind
  obtain ⟨u, h⟩ := accepted_acceptBind ht k ⟨t, a, c, force⟩ target hw
  have hframe := (moves_acceptBind (.bind []) s k ⟨t, a, c, force⟩ target).frame
  have hkept := (moves_acceptBind (.bind []) s k ⟨t, a, c, force⟩ target).kept
  generalize s.acceptBind k ⟨t, a, c, force⟩ target = v at hown h hframe hkept
  have hlost : ∀ x, (s.leaseOf a).holder = some x → x ≠ t → v.leaseOf a = .reserved := fun x hx hxt => by
    rw [h.leaseOf_addr, Lease.bound_of_ne (by rw [hx]; simpa using hxt)]
  have hevict : (v.entry a).evict = (s.entry a).evictBound t := by rw [h.entry_addr]; rfl
  refine ⟨v.putReply ⟨.ok, RequestCode.bind.byte, [byteOf k.val, 0x01]⟩, ?_, ?_, hframe.power, ?_, ?_, ?_, ?_, ?_, ?_, ?_, ?_, ?_, ?_,
    fun p hp hpt => h.entry_other hp hpt, ?_, fun p => (hkept p).conflicts nofun nofun, ?_⟩
  · refine (serve_asked _ hasked).trans ?_
    rw [hown]
    rfl
  · exact h.away.pending.trans h.early.pending
  · exact h.away.att.trans h.early.att
  · have hport : v.port = s.port := hframe.port
    rw [← hport]
    rfl
  · refine hframe.store.trans ?_
    rfl
  · intro x d e hx hl
    refine ⟨hlost x (by rw [hl]; rfl) hx, hevict.trans ?_⟩
    rw [Entry.evictBound, show (s.entry a).lease = .live x d e from hl]
    exact if_neg hx
  · intro x d n f hx hl
    refine ⟨hlost x (by rw [hl]; rfl) hx, hevict.trans ?_⟩
    rw [Entry.evictBound, show (s.entry a).lease = .stale x d n f from hl]
    exact if_neg hx
  · intro x d j hx hl
    refine ⟨hlost x (by rw [hl]; rfl) hx, hevict.trans (Entry.evictBound_eq (.inr (.inr ?_))), h.slot_empty hl hx⟩
    rw [show (s.entry a).lease = .offered x d j from hl]
    rfl
  · intro hx
    exact ⟨h.leaseOf_addr.trans (Lease.bound_of_eq hx), hevict.trans (Entry.evictBound_eq (.inl hx))⟩
  · intro hx
    exact ⟨h.leaseOf_addr.trans (Lease.bound_of_ne (by rw [hx]; nofun)), hevict.trans (Entry.evictBound_eq (.inr (.inl hx)))⟩
  · exact h.freeList hm
  · intro p hp hpt
    have he := h.entry_held hm hp hpt
    have hl : v.leaseOf p = s.withdrawnLease p t := congrArg Entry.lease he
    refine ⟨fun hpin => ?_, fun hpin => ?_, congrArg Entry.mark he, congrArg Entry.evict he⟩
    · exact hl.trans (if_pos hpin)
    · exact hl.trans (if_neg (by simp [hpin]))
  · rcases (s.entry a).bound_mark t (s.store.pinned a) with hmark | ⟨he, hpin⟩
    · exact .inl ((congrArg Entry.mark h.entry_addr).trans hmark)
    · exact .inr ⟨h.entry_addr.trans he, hpin⟩
  · intro first
    refine (h.bus ht.2.2).trans (congrArg State.bus ?_)
    congr 1
    funext w p
    cases hl : s.leaseOf p <;> simp [Lease.holder, Lease.state]

end Sys2Proof.Machine
end

section
/-! PROOFS. O57 and O59: the laws between table and shadow, and the marks of every change. Commands that leave the store alone
keep them move by move; the others are the Bind, the Unbind, the steps and outcomes of a rewrite, and the rebuildings. -/

namespace Sys2Proof.Machine

open Sys2Proof.Safety

theorem bindingLaws_congr {s t : State} (hl : t.lease = s.lease) (hst : t.store = s.store) (hs : BindingLaws s) :
    BindingLaws t := by
  have he : ∀ p, t.leaseOf p = s.leaseOf p := fun p => by simp [State.leaseOf, State.entry, hl]
  simpa only [BindingLaws, PinnedLaw, he, hl, hst] using hs

/-! ### Bind and Unbind -/

/-- The shadow of an accepted Bind repeats nothing (R123, R130 check 3). -/
theorem boundStore_shadowLaw {s : State} (hs : ShadowLaw s.store) {b : BindParams} {k : BindSlot} (target : SectorId)
    (hk : s.store.bindSlot b.tag = some k) (hb : s.store.boundToOther b.tag b.addr = false) :
    ShadowLaw (s.boundStore k b target) := by
  refine noRepeat_set hs k _ ?_
  rintro x ⟨⟩ j d hj hd
  exact others_differ hs hk hb hj hd

/-- The change that an accepted Bind makes pending fits the shadow (R124). -/
theorem boundStore_changeLaw {s : State} (hs : ShadowLaw s.store) {b : BindParams} {k : BindSlot} (target : SectorId)
    (hk : s.store.bindSlot b.tag = some k) : ChangeLaw (s.boundStore k b target) := by
  rintro r ⟨⟩
  refine ⟨(s.boundStore_shadow k b target k).trans (if_pos rfl), rfl, fun x hx => ?_⟩
  rcases Store.bindSlot_eq_some hk with ⟨y, hy, ht⟩ | ⟨hn, -⟩
  · have hxy : some x = some y := hx.symm.trans hy
    cases hxy
    refine ⟨ht, fun j d hj hd ha => hj ?_⟩
    rw [State.boundStore_shadow, if_neg hj] at hd
    exact hs j k d x hd hx (.inr ha)
  · have hxn : some x = none := hx.symm.trans hn
    cases hxn

/-- The lease of the other holding of a tag that a Bind moves is RESERVED just where it is pinned. -/
theorem withdrawnLease_eq_reserved {s : State} {p : Pool} {t : Tag} :
    s.withdrawnLease p t = .reserved ↔ s.store.pinned p = true := by
  unfold State.withdrawnLease
  split
  · simp_all
  · split <;> simp_all

/-- An accepted Bind leaves its address and the superseded one as the pinned law wants them (R13, R132 to R134). -/
theorem pinnedLaw_acceptBind {s : State} (ht : TableLaws s) (hs : BindingLaws s) {b : BindParams} {k : BindSlot}
    (target : SectorId) (hm : s.store.mode = .ready) (hk : s.store.bindSlot b.tag = some k)
    (hb : s.store.boundToOther b.tag b.addr = false) (hw : s.leaseOf b.addr ≠ .withheld) :
    PinnedLaw (s.acceptBind k b target) := by
  obtain ⟨u, h⟩ := accepted_acceptBind ht k b target hw
  have hready : (s.acceptBind k b target).lease.ready = s.lease.ready :=
    (moves_acceptBind (.bind []) s k b target).frame.ready
  intro hr
  obtain ⟨h1, -, h3⟩ := hs.2.2 (hready ▸ hr)
  rw [h.store]
  generalize s.acceptBind k b target = v at h hr
  have held : ∀ p, p ≠ b.addr → (s.leaseOf p).holder = some b.tag → v.leaseOf p = s.withdrawnLease p b.tag :=
    fun p hp ht => congrArg Entry.lease (h.entry_held hm hp ht)
  have other : ∀ p, p ≠ b.addr → (s.leaseOf p).holder ≠ some b.tag → v.leaseOf p = s.leaseOf p :=
    fun p hp ht => congrArg Entry.lease (h.entry_other hp ht)
  refine ⟨fun j d hd => ?_, fun p hp => ?_, fun p hp => ?_⟩
  · rw [State.boundStore_shadow] at hd
    split at hd
    · cases hd
      rw [h.leaseOf_addr, Lease.bound]
      split
      · exact .inr ‹_›
      · exact .inl rfl
    · obtain ⟨htag, haddr⟩ := others_differ hs.1 hk hb ‹_› hd
      have hd' := h1 j d hd
      rw [other d.addr haddr]
      · exact hd'
      · rcases hd' with h | h
        · rw [h]
          nofun
        · rw [h]
          simpa using htag
  · rw [State.boundStore_superseded, supersededBy_eq_some] at hp
    obtain ⟨d, hd, rfl, hne⟩ := hp
    have htag : d.tag = b.tag := by
      rcases Store.bindSlot_eq_some hk with ⟨y, hy, hty⟩ | ⟨hn, -⟩
      · rw [hd] at hy
        cases hy
        exact hty
      · rw [hd] at hn
        cases hn
    rcases h1 k d hd with hl | hl
    · rw [other d.addr hne (by rw [hl]; nofun), hl]
    · rw [held d.addr hne (htag ▸ hl)]
      exact withdrawnLease_eq_reserved.2 (Store.pinned_iff.2 (.inl ⟨k, d, hd, rfl⟩))
  · by_cases hpa : p = b.addr
    · rw [hpa]
      exact s.boundStore_pinned k b target
    · rw [State.boundStore_pinned_ne hm k b target hpa]
      by_cases hpt : (s.leaseOf p).holder = some b.tag
      · exact withdrawnLease_eq_reserved.1 ((held p hpa hpt).symm.trans hp)
      · exact h3 p ((other p hpa hpt).symm.trans hp)

theorem bindingLaws_bind {s : State} (ht : TableLaws s) (hs : BindingLaws s) (b : BindParams) :
    BindingLaws (s.bind b).state := by
  rcases s.bind_cases b with ⟨st, d, h, -⟩ | ⟨k, target, hm, hk, hb, hw, h⟩
  · rw [h]
    exact hs
  · rw [h]
    have hstore : (s.acceptBind k b target).store = s.boundStore k b target :=
      (moves_acceptBind (.bind []) s k b target).frame.store
    refine ⟨?_, ?_, pinnedLaw_acceptBind ht hs target hm hk hb hw⟩
    · exact hstore ▸ boundStore_shadowLaw hs.1 target hk hb
    · exact hstore ▸ boundStore_changeLaw hs.1 target hk

/-- An Unbind changes no pinned flag before its outcome (R136). -/
theorem pinned_beginUnbind {st : Store} (hm : st.mode = .ready) (k : BindSlot) (b : Binding) (target : SectorId) (p : Pool) :
    (st.beginRewrite (.unbind k b) target).pinned p = st.pinned p := by
  simp [Store.pinned, Store.bindingAt, Store.superseded, Store.beginRewrite, hm]

theorem bindingLaws_unbind {s : State} (hs : BindingLaws s) (t : Tag) : BindingLaws (s.unbind t).state := by
  rcases s.unbind_cases t with ⟨st, d, h, -⟩ | ⟨k, b, target, hm, hk, h⟩
  · rw [h]
    exact hs
  · rw [h]
    refine ⟨hs.1, ?_, fun hr => ?_⟩
    · rintro r ⟨⟩
      exact hk
    · obtain ⟨h1, -, h3⟩ := hs.2.2 hr
      exact ⟨h1, nofun, fun p hp => (pinned_beginUnbind hm k b target p).trans (h3 p hp)⟩

theorem bindingLaws_owner {ps : List Byte} {c : Instr} (hc : c = .bind ps ∨ c = .unbind ps) {s t : State} (ht : TableLaws s)
    (hs : BindingLaws s) (h : exec c s = .next t) : BindingLaws t := by
  rcases hc with rfl | rfl
  · rcases serve_next h with rfl | ⟨-, rfl⟩
    · exact hs
    · refine bindingLaws_congr (s := (ownBind ps s).state) rfl rfl ?_
      unfold ownBind
      split
      · exact bindingLaws_bind ht hs _
      · exact hs
  · rcases serve_next h with rfl | ⟨-, rfl⟩
    · exact hs
    · refine bindingLaws_congr (s := (ownUnbind ps s).state) rfl rfl ?_
      unfold ownUnbind
      split
      · exact bindingLaws_unbind hs _
      · exact hs

/-! ### Steps and outcomes of a rewrite -/

/-- A rewrite that goes on keeps the pinned flags. -/
theorem pinned_goes {st st' : Store} {r : Rewrite} {step : RewriteStep} (hm : st.mode = .rewriting r)
    (hsh : st'.shadow = st.shadow) (hm' : st'.mode = .rewriting { r with step := step }) :
    st'.superseded = st.superseded ∧ ∀ p, st'.pinned p = st.pinned p := by
  have hsup : st'.superseded = st.superseded := by simp [Store.superseded, hm, hm']
  exact ⟨hsup, fun p => by simp only [Store.pinned, Store.bindingAt, hsup, hsh]⟩

theorem bindingLaws_goes {s : State} (hs : BindingLaws s) {r : Rewrite} {st : Store} {step : RewriteStep}
    (hm : s.store.mode = .rewriting r) (hsh : st.shadow = s.store.shadow)
    (hm' : st.mode = .rewriting { r with step := step }) : BindingLaws (s.withStore st) := by
  obtain ⟨hsup, hpin⟩ := pinned_goes hm hsh hm'
  refine ⟨by rw [shadowLaw_iff, State.withStore_store, hsh]; exact hs.1, ?_, fun hr => ?_⟩
  · intro r' hr'
    rw [State.withStore_store, hm'] at hr'
    cases hr'
    rw [State.withStore_store, hsh]
    exact hs.2.1 r hm
  · obtain ⟨h1, h2, h3⟩ := hs.2.2 hr
    rw [State.withStore_store, hsup, hsh]
    exact ⟨h1, h2, fun p hp => (hpin p).trans (h3 p hp)⟩

/-- The shadow after an outcome repeats nothing: what a failed Bind puts back stands in no other slot (R135). -/
theorem settled_shadowLaw {st : Store} (hs : ShadowLaw st) (hl : ChangeLaw st) {r : Rewrite} (hm : st.mode = .rewriting r)
    (o : RewriteOutcome) : ShadowLaw (st.settled r o) := by
  have hr := hl r hm
  rw [shadowLaw_iff, Store.settled]
  cases hc : r.change with
  | bind k before after old =>
    rw [hc] at hr
    obtain ⟨hafter, -, hback⟩ := hr
    cases o != RewriteOutcome.failed with
    | true => exact hs
    | false =>
      refine noRepeat_set hs k _ fun x hx j d hj hd => ?_
      obtain ⟨htag, haddr⟩ := hback x hx
      refine ⟨fun e => hj (hs j k d after hd hafter (.inl (e.trans htag))), haddr j d hj hd⟩
  | unbind k b =>
    cases o != RewriteOutcome.failed with
    | true => exact noRepeat_set hs k _ nofun
    | false => exact hs

/-- A binding that stands after an outcome was held, or its address RESERVED, before it (R13, R134, R135). -/
theorem settled_bound {s : State} (hl : ChangeLaw s.store) {r : Rewrite} (hm : s.store.mode = .rewriting r)
    (hp : PinnedLaw s) (hr : s.lease.ready = true) {o : RewriteOutcome} {k : BindSlot} {b : Binding}
    (h : (s.store.settled r o).shadow[k] = some b) : s.leaseOf b.addr = .reserved ∨ (s.leaseOf b.addr).holder = some b.tag := by
  obtain ⟨h1, h2, -⟩ := hp hr
  rcases settle_eq_some h with h | ⟨-, after, old, hc⟩
  · exact h1 k b h
  · have hchange := hl r hm
    rw [hc] at hchange
    obtain ⟨hafter, hold, hback⟩ := hchange
    by_cases ha : b.addr = after.addr
    · rw [ha, (hback b rfl).1]
      exact h1 k after hafter
    · refine .inl (h2 b.addr ((superseded_eq_some hl hm).2 ⟨k, b, after, ?_, rfl, ha⟩))
      rw [hc, hold, supersededBy, if_neg ha]

theorem Lease.unpinned_ne_reserved (l : Lease) : l.unpinned ≠ .reserved := by
  unfold Lease.unpinned
  split
  · nofun
  · assumption

/-- What an outcome leaves of the pinned law: RESERVED stays where it is pinned, and nowhere else (R14). -/
theorem bindingLaws_ends {s t : State} (hs : BindingLaws s) {r : Rewrite} {st : Store} {o : RewriteOutcome}
    (hm : s.store.mode = .rewriting r) (hst : SameChange s.store st) (hready : t.lease.ready = s.lease.ready)
    (h : EndsIn s r st o t) : BindingLaws t := by
  have hl' := hst.changeLaw hs.2.1
  have hm' : st.mode = .rewriting r := hst.mode.trans hm
  have hsettled : t.store.shadow = (s.store.settled r o).shadow := by
    rw [h.store]
    simp only [Store.settled, hst.shadow]
  have hsub : ∀ p, t.store.pinned p = true → s.store.pinned p = true := fun p hp => by
    rw [← hst.pinned]
    exact pinned_of_settled hl' hm' (h.store ▸ hp)
  have kept : ∀ p, t.store.pinned p = true → t.leaseOf p = s.leaseOf p := fun p hp =>
    congrArg Entry.lease (h.others p fun _ => hp)
  refine ⟨?_, ?_, fun hr => ?_⟩
  · rw [shadowLaw_iff, hsettled]
    exact settled_shadowLaw hs.1 hs.2.1 hm o
  · intro r' hr'
    rw [h.store] at hr'
    rcases st.settledMode_cases with h' | h' <;> simp [Store.settled, h'] at hr'
  · have hr' := hready ▸ hr
    obtain ⟨-, -, h3⟩ := hs.2.2 hr'
    refine ⟨fun k b hk => ?_, fun p hp => ?_, fun p hp => ?_⟩
    · rw [kept b.addr (Store.pinned_iff.2 (.inl ⟨k, b, hk, rfl⟩))]
      exact settled_bound hs.2.1 hm hs.2.2 hr' (hsettled ▸ hk)
    · rw [h.store, Store.settled_superseded] at hp
      cases hp
    · by_contra hn
      rw [Bool.not_eq_true] at hn
      by_cases hps : s.store.pinned p = true
      · have hun : t.leaseOf p = (s.leaseOf p).unpinned := congrArg Entry.lease (h.unpinned p hps hn)
        exact Lease.unpinned_ne_reserved _ (hun.symm.trans hp)
      · have hsame : t.leaseOf p = s.leaseOf p := congrArg Entry.lease (h.others p fun h => absurd h hps)
        exact hps (h3 p (hsame.symm.trans hp))

theorem RewriteStepOf.bindingLaws {s t : State} (h : RewriteStepOf s t) (hs : BindingLaws s) : BindingLaws t := by
  cases h with
  | absent => exact hs
  | goes step hm hsh hm' => exact bindingLaws_goes hs hm hsh hm'
  | @ends r st o hm hsh hm' =>
    have hst : SameChange s.store st := ⟨hsh, hm'.trans hm.symm⟩
    exact bindingLaws_ends hs hm hst ((moves_rewriteOutcome (.bind []) (s.withStore st) r o).frame.ready)
      (endsIn_rewriteOutcome o hm hs.2.1 hst)

/-! ### Rebuildings -/

/-- A lease engine that is not ready, over a store that is not in a rewrite. -/
theorem bindingLaws_of_scanning {s : State} (hs : ShadowLaw s.store) (hscan : s.store.isScanning)
    (hr : s.lease.ready = false) : BindingLaws s := by
  obtain ⟨p, hp⟩ := hscan
  exact ⟨hs, fun r hm => by simp [hp] at hm, fun h => by simp [hr] at h⟩

/-- A table built from the shadow is RESERVED just where the shadow pins an address (R15, R16). -/
theorem pinnedLaw_build {s : State} (h : s.lease = buildLeaseEngine s.store) : PinnedLaw s := by
  intro _
  have hl := leaseOf_build h
  refine ⟨fun k b hk => .inl ?_, fun p hp => ?_, fun p hp => ?_⟩
  · rw [hl, if_pos (Store.pinned_iff.2 (.inl ⟨k, b, hk, rfl⟩))]
  · rw [hl, if_pos (Store.pinned_iff.2 (.inr hp))]
  · rw [hl] at hp
    split at hp
    · assumption
    · cases hp

theorem Rebuild.bindingLaws {s t : State} (h : Rebuild s t) (hg : GateLaw s) (hs : BindingLaws s) : BindingLaws t := by
  cases h with
  | absent => exact hs
  | lost fast cut hp =>
    refine bindingLaws_of_scanning ?_ ⟨_, rfl⟩ rfl
    intro j k b d hj
    simp [State.volatileLost, Store.afterReset] at hj
  | began hp => exact bindingLaws_of_scanning hs.1 ⟨_, rfl⟩ (hg.1 (by simp [hp]))
  | @ended st o hp hscan hsh =>
    refine ⟨hsh hs.1, ?_, pinnedLaw_build rfl⟩
    intro r hm
    change st.settledMode = _ at hm
    rcases st.settledMode_cases with h' | h' <;> simp [h'] at hm
  | restarted ha => exact ⟨hs.1, hs.2.1, pinnedLaw_build rfl⟩
  | refused ha => exact bindingLaws_congr rfl rfl hs

/-! ### O57: every step -/

theorem Effect.bindingLaws {c : Instr} {s t : State} {r : Result} (h : Effect c s r) (e : r = .next t) (ht : TableLaws s)
    (hs : BindingLaws s) (hg : GateLaw s) (hc : ¬ Binds c) : BindingLaws t := by
  cases h with
  | absent =>
    cases e
    exact hs
  | event hf =>
    rcases whenReady_next e with ⟨-, rfl⟩ | ⟨-, rfl⟩
    · exact hs
    · exact (hf s).bindingLaws ht hs
  | news hf =>
    rcases takeNews_next e with rfl | ⟨-, rest, ⟨-, rfl⟩ | ⟨-, rfl⟩⟩
    · exact hs
    · exact bindingLaws_congr rfl rfl hs
    · exact (hf (taken s rest)).bindingLaws (tableLaws_congr rfl ht) (bindingLaws_congr rfl rfl hs)
  | bus hf =>
    rcases whenRunning_next e with ⟨-, rfl⟩ | ⟨-, rfl⟩
    · exact hs
    · exact ((hf s).moves c).bindingLaws ht hs
  | @owner code ps own hf =>
    rcases serve_next e with rfl | ⟨-, rfl⟩
    · exact hs
    · have hm : Moves c s (own s).state := (hf s).moves.resolve_right fun h => hc h.1
      exact bindingLaws_congr (s := (own s).state) rfl rfl (hm.bindingLaws ht hs)
  | frame _ hf =>
    cases e
    exact bindingLaws_congr hf.lease hf.store hs
  | scan _ hf =>
    rcases whenRunning_next e with ⟨-, rfl⟩ | ⟨-, rfl⟩
    · exact hs
    · rcases hf s with h | ⟨st, hscan, hst, hsh, h⟩ <;> rw [h]
      · exact hs
      · obtain ⟨p, hp⟩ := hscan
        refine bindingLaws_of_scanning (hsh hs.1) hst (eq_false_of_ne_true fun hr => hg.2.1.1 hr p hp)
  | rewrite _ hf =>
    rcases whenRunning_next e with ⟨-, rfl⟩ | ⟨-, rfl⟩
    · exact hs
    · exact (hf s).bindingLaws hs

theorem exec_bindingLaws {c : Instr} {s t : State} (ht : TableLaws s) (hg : GateLaw s) (hs : BindingLaws s)
    (h : exec c s = .next t) : BindingLaws t := by
  by_cases hc : Binds c
  · obtain ⟨ps, hc⟩ := hc
    exact bindingLaws_owner hc ht hs h
  · rcases exec_cases h with he | ⟨-, hr⟩
    · exact he.bindingLaws rfl ht hs hg hc
    · exact hr.bindingLaws hg hs

/-- Settles O57: the laws of table and gate are kept beside them, so the three go through every step together. -/
theorem bindingLawsAreKept : Obligations.BindingLawsAreKept := by
  unfold Obligations.BindingLawsAreKept
  intro s t ht hg hs h
  refine (step_keeps (P := fun s => TableLaws s ∧ GateLaw s ∧ BindingLaws s) ?_ ?_ ?_ ⟨ht, hg, hs⟩ h).2.2
  · rintro s q ⟨ht, hg, hs⟩
    exact ⟨tableLaws_congr rfl ht, gateLaw_withPending q hg, bindingLaws_congr rfl rfl hs⟩
  · rintro s ⟨ht, hg, hs⟩
    have hm := moves_millisecond (.expiry 0) s
    exact ⟨hm.tableLaws ht, gateLaw_millisecond hg, hm.bindingLaws ht hs⟩
  · rintro c s t ⟨ht, hg, hs⟩ h
    exact ⟨exec_tableLaws ht h, exec_gateLaw hg h, exec_bindingLaws ht hg hs h⟩

/-! ### O59: marks, notices and counts -/

/-- A change of an entry's pinned flag is marked (R10). -/
def PinMarked (s t : State) (p : Pool) : Prop := t.store.pinned p = s.store.pinned p ∨ (t.entry p).mark = true

theorem pinMarked_of_store {s t : State} (h : t.store = s.store) (p : Pool) : PinMarked s t p := .inl (by rw [h])

theorem pinMarked_ends {s t : State} (hl : ChangeLaw s.store) {r : Rewrite} {st : Store} {o : RewriteOutcome}
    (hm : s.store.mode = .rewriting r) (hst : SameChange s.store st) (h : EndsIn s r st o t) (p : Pool) : PinMarked s t p := by
  cases hp : s.store.pinned p with
  | false =>
    refine .inl ((eq_false_of_ne_true fun hn => ?_).trans hp.symm)
    have := pinned_of_settled (hst.changeLaw hl) (hst.mode.trans hm) (h.store ▸ hn)
    rw [hst.pinned, hp] at this
    cases this
  | true =>
    cases hp' : t.store.pinned p with
    | false => exact .inr (congrArg Entry.mark (h.unpinned p hp hp'))
    | true => exact .inl (hp'.trans hp.symm)

theorem RewriteStepOf.pinMarked {s t : State} (h : RewriteStepOf s t) (hl : ChangeLaw s.store) (p : Pool) :
    PinMarked s t p := by
  cases h with
  | absent => exact .inl rfl
  | goes step hm hsh hm' => exact .inl ((pinned_goes hm hsh hm').2 p)
  | @ends r st o hm hsh hm' =>
    have hst : SameChange s.store st := ⟨hsh, hm'.trans hm.symm⟩
    exact pinMarked_ends hl hm hst (endsIn_rewriteOutcome o hm hl hst) p

/-- A Bind marks its address where that was not pinned, and changes no other pinned flag (R10, R132). -/
theorem pinMarked_acceptBind {s : State} (hm : s.store.mode = .ready) (k : BindSlot) (b : BindParams) (target : SectorId)
    (hw : s.leaseOf b.addr ≠ .withheld) (p : Pool) : PinMarked s (s.acceptBind k b target) p := by
  have hstore : (s.acceptBind k b target).store = s.boundStore k b target :=
    (moves_acceptBind (.bind []) s k b target).frame.store
  unfold PinMarked
  rw [hstore]
  by_cases hp : p = b.addr
  · subst p
    rw [s.boundStore_pinned k b target]
    cases hpin : s.store.pinned b.addr with
    | true => exact .inl rfl
    | false =>
      have early := earlyEffect_spec (s.withStore (s.boundStore k b target)) b.tag (s.store.pinned b.addr) hw
      have hmark : (((s.withStore (s.boundStore k b target)).earlyEffect b.tag b.addr (s.store.pinned b.addr)).entry
          b.addr).mark = true := by
        rw [early.entry, Entry.bound, hpin]
        simp
      rw [State.acceptBind_eq]
      exact .inr ((Moves.kept (c := .bind []) (moves_moveAway _ _ b.tag b.addr) b.addr).mark nofun hmark)
  · exact .inl (State.boundStore_pinned_ne hm k b target hp)

theorem pinMarked_owner {ps : List Byte} {c : Instr} (hc : c = .bind ps ∨ c = .unbind ps) {s t : State}
    (h : exec c s = .next t) (p : Pool) : PinMarked s t p := by
  rcases hc with rfl | rfl
  · rcases serve_next h with rfl | ⟨-, rfl⟩
    · exact .inl rfl
    · change PinMarked s (ownBind ps s).state p
      unfold ownBind
      split
      · rename_i b _
        rcases s.bind_cases b with ⟨st, d, h, -⟩ | ⟨k, target, hm, -, -, hw, h⟩
        · rw [h]
          exact .inl rfl
        · rw [h]
          exact pinMarked_acceptBind hm k b target hw p
      · exact .inl rfl
  · rcases serve_next h with rfl | ⟨-, rfl⟩
    · exact .inl rfl
    · change PinMarked s (ownUnbind ps s).state p
      unfold ownUnbind
      split
      · rcases s.unbind_cases (tagOfBytes ps) with ⟨st, d, h, -⟩ | ⟨k, b, target, hm, -, h⟩
        · rw [h]
          exact .inl rfl
        · rw [h]
          exact .inl (pinned_beginUnbind hm k b target p)
      · exact .inl rfl

theorem Effect.pinMarked {c : Instr} {s t : State} {r : Result} (h : Effect c s r) (e : r = .next t) (hl : ChangeLaw s.store)
    (hscan : ¬ s.store.isScanning) (hc : ¬ Binds c) (p : Pool) : PinMarked s t p := by
  cases h with
  | absent =>
    cases e
    exact .inl rfl
  | event hf =>
    rcases whenReady_next e with ⟨-, rfl⟩ | ⟨-, rfl⟩
    · exact .inl rfl
    · exact pinMarked_of_store (hf s).frame.store p
  | news hf =>
    rcases takeNews_next e with rfl | ⟨-, rest, ⟨-, rfl⟩ | ⟨-, rfl⟩⟩
    · exact .inl rfl
    · exact .inl rfl
    · exact pinMarked_of_store (hf (taken s rest)).frame.store p
  | bus hf =>
    rcases whenRunning_next e with ⟨-, rfl⟩ | ⟨-, rfl⟩
    · exact .inl rfl
    · exact pinMarked_of_store (hf s).store p
  | @owner code ps own hf =>
    rcases serve_next e with rfl | ⟨-, rfl⟩
    · exact .inl rfl
    · have hm : Moves c s (own s).state := (hf s).moves.resolve_right fun h => hc h.1
      exact pinMarked_of_store hm.frame.store p
  | frame _ hf =>
    cases e
    exact pinMarked_of_store hf.store p
  | scan _ hf =>
    rcases whenRunning_next e with ⟨-, rfl⟩ | ⟨-, rfl⟩
    · exact .inl rfl
    · rcases hf s with h | ⟨st, h, -⟩
      · exact .inl (by rw [h])
      · exact absurd h hscan
  | rewrite _ hf =>
    rcases whenRunning_next e with ⟨-, rfl⟩ | ⟨-, rfl⟩
    · exact .inl rfl
    · exact (hf s).pinMarked hl p

/-- Settles O59: marks and notices move by move; the pinned flag through Bind and outcome. -/
theorem changesAreMarkedAndNoticesOutliveThem : Obligations.ChangesAreMarkedAndNoticesOutliveThem := by
  unfold Obligations.ChangesAreMarkedAndNoticesOutliveThem
  have leads : ∀ (c : Instr) (s t : State), isReset c = false → exec c s = .next t →
      (∀ p, Kept c p (s.entry p) (t.entry p)) ∧ ((∀ ps, c ≠ .scan ps) → ∀ p, Marked s t p) := by
    intro c s t hc h
    by_cases he : c = .hardResetEnd
    · subst c
      cases h
      refine ⟨fun p => ?_, fun _ p => .inl ?_⟩
      · split <;> exact Kept.refl _ p _
      · split <;> exact ⟨rfl, rfl⟩
    · obtain ⟨-, st, u, -, -, hm, hl, -⟩ := (exec_effect s hc he).leads h
      have hu : ∀ p, t.entry p = u.entry p := fun p => by simp only [State.entry, hl]
      refine ⟨fun p => hu p ▸ hm.kept p, fun hscan p => ?_⟩
      have := hm.marked hscan p
      unfold Marked State.leaseOf
      rw [hu]
      exact this
  refine ⟨fun c s t p hserving hg hs hc hscan h => ?_, fun c s t p hc h => ?_⟩
  · obtain ⟨hk, hmark⟩ := leads c s t hc h
    have hnot : ¬ s.store.isScanning := fun ⟨q, hq⟩ => hg.2.1.1 hserving.2 q hq
    have hpin : PinMarked s t p := by
      by_cases hb : Binds c
      · obtain ⟨ps, hb⟩ := hb
        exact pinMarked_owner hb h p
      · by_cases he : c = .hardResetEnd
        · subst c
          cases h
          rw [if_neg (by simp [hserving.1])]
          exact .inl rfl
        · exact (exec_effect s hc he).pinMarked h hs.2.1 hnot hb p
    refine ⟨(hk p).mark hscan, ?_⟩
    rintro (hstate | hholder | hpinned)
    · exact (hmark hscan p).resolve_left fun h => hstate h.1
    · exact (hmark hscan p).resolve_left fun h => hholder h.2
    · exact hpin.resolve_left hpinned
  · obtain ⟨hk, -⟩ := leads c s t hc h
    exact ⟨(hk p).evict, (hk p).conflicts⟩

end Sys2Proof.Machine
end

section
/-! PROOFS. The second and the millisecond (O11, O2), the lapse of an offer (O13), the end of the scan (O10), and the state
after reset (O53). -/

namespace Sys2Proof.Machine

open Sys2Proof.Safety

/-! ### Commands one after the other -/

theorem Moves.serving {c : Instr} {s t : State} (h : Moves c s t) (hs : Serving s) : Serving t :=
  ⟨h.frame.power.trans hs.1, h.frame.ready.trans hs.2⟩

theorem doing_cons {c : Instr} {s t : State} (h : exec c s = .next t) (cs : List Instr) : doing (c :: cs) s = doing cs t := by
  rw [doing, List.foldl_cons, h]
  rfl

theorem doing_append (cs ds : List Instr) (s : State) : doing (cs ++ ds) s = doing ds (doing cs s) := List.foldl_append

/-- Two commands for each address in turn, where each is an event of the lease engine. -/
theorem doing_pairs {f g : Pool → Instr} {F G : State → Pool → State}
    (hf : ∀ s p, Serving s → exec (f p) s = .next (F s p)) (hg : ∀ s p, Serving s → exec (g p) s = .next (G s p))
    (hF : ∀ s p, Moves (.expiry 0) s (F s p)) (hG : ∀ s p, Moves (.expiry 0) s (G s p)) (ps : List Pool) :
    ∀ s, Serving s → doing (ps.flatMap fun p => [f p, g p]) s = ps.foldl (fun s p => G (F s p) p) s := by
  induction ps with
  | nil => exact fun _ _ => rfl
  | cons p ps ih =>
    intro s hs
    have hs' := (hF s p).serving hs
    rw [List.flatMap_cons, List.cons_append, List.cons_append, List.nil_append, doing_cons (hf s p hs),
      doing_cons (hg _ p hs'), List.foldl_cons]
    exact ih _ ((hG _ p).serving hs')

theorem exec_expiry (s : State) (p : Pool) (hs : Serving s) : exec (.expiry p) s = .next (s.expire p) :=
  whenReady_serving (fun s => s.expire p) hs

theorem exec_endOfQuarantine (s : State) (p : Pool) (hs : Serving s) :
    exec (.endOfQuarantine p) s = .next (s.endQuarantine p) :=
  whenReady_serving (fun s => s.endQuarantine p) hs

theorem exec_adoptionWindowClose {s : State} (hs : Serving s) : exec .adoptionWindowClose s = .next s.closeWindow :=
  whenReady_serving State.closeWindow hs

theorem exec_offerTimeout (s : State) (p : Pool) (hs : Serving s) : exec (.offerTimeout p) s = .next (s.lapseRunOut p) :=
  whenReady_serving (fun s => s.lapseRunOut p) hs

theorem exec_probeTimeout (s : State) (p : Pool) (hs : Serving s) : exec (.probeTimeout p) s = .next (s.probeRunOut p) :=
  whenReady_serving (fun s => s.probeRunOut p) hs

/-! ### O11: the second -/

/-- The events of the second, commanded in their order, are the end of the second (R50; log 6). -/
theorem doing_eventsOfTheSecond {s : State} (hs : Serving s) : doing eventsOfTheSecond s = s.endSecond := by
  have hpairs := doing_pairs (f := .expiry) (g := .endOfQuarantine) (F := State.expire) (G := State.endQuarantine)
    exec_expiry exec_endOfQuarantine (fun s p => moves_expire _ s p)
    (fun s p => moves_endQuarantine _ s p) (List.finRange 112) s hs
  have hserving : Serving ((List.finRange 112).foldl (fun s p => (s.expire p).endQuarantine p) s) :=
    List.foldlRecOn (motive := Serving) _ _ hs fun u hu p _ =>
      (moves_endQuarantine (.expiry 0) _ p).serving ((moves_expire (.expiry 0) u p).serving hu)
  rw [eventsOfTheSecond, doing_append, hpairs, doing_cons (exec_adoptionWindowClose hserving), State.endSecond, pools,
    doing, List.foldl_nil]

/-- Where nothing is due, the end of the second does nothing. -/
theorem endSecond_of_nothing_due {s : State} (hd : ∀ p, (s.leaseOf p).deadline ≠ some s.lease.clock)
    (hw : s.lease.window ≠ some s.lease.clock) : s.endSecond = s := by
  have hfold : pools.foldl (fun s p => (s.expire p).endQuarantine p) s = s := by
    refine List.foldlRecOn (motive := (· = s)) _ _ rfl ?_
    rintro u rfl p -
    have he : u.expire p = u := by
      refine (u.expire_spec p).resolve_right ?_
      rintro ⟨t, c, hl, -⟩
      exact hd p (by rw [hl]; rfl)
    rw [he]
    refine (u.endQuarantine_spec p).resolve_right ?_
    rintro ⟨t, hl, -⟩
    exact hd p (by rw [hl]; rfl)
  rw [State.endSecond, hfold, State.closeWindow, if_neg hw]

theorem nowPlus_one {s : State} (h : s.lease.clock.toNat + 1 < 2 ^ 32) : s.nowPlus 1 = s.lease.clock + 1 := by
  apply BitVec.eq_of_toNat_eq
  rw [State.nowPlus, leaseTime, if_pos h, BitVec.toNat_add, BitVec.toNat_ofNat]
  rfl

@[simp] theorem leaseOf_setClock (s : State) (n : BitVec 32) (p : Pool) :
    (s.withLease { s.lease with clock := n }).leaseOf p = s.leaseOf p := rfl

theorem exec_leaseClockTick {s : State} (hs : Serving s) : exec .leaseClockTick s =
    .next (s.endSecond.withLease { s.endSecond.lease with clock := s.endSecond.nowPlus 1 }) := by
  rw [exec, execLeaseClockTick, whenReady_serving _ hs]

/-- The end of a quarantine of an address that is not pinned: FREE at the tail with its last holder (R72). -/
theorem endQuarantine_eq_moved {s : State} {p : Pool} {t : Tag} (hl : s.leaseOf p = .quarantine t s.lease.clock)
    (hp : s.store.pinned p = false) :
    s.endQuarantine p = moved s p (.free (some t)) (s.lease.freeList ++ [p]) s.lease.slots := by
  have he : s.endQuarantine p = s.toFree p (some t) .tail := by
    unfold State.endQuarantine
    rw [hl]
    exact if_pos rfl
  rw [he, State.toFree_spec s p _ _ (by rw [hl]; rfl), hp, hl]
  rfl

/-- Settles O11: the tick is the end of the second, after which nothing is due, and then the clock. -/
theorem clockWindowAndEndOfQuarantine : Obligations.ClockWindowAndEndOfQuarantine := by
  unfold Obligations.ClockWindowAndEndOfQuarantine
  intro s hs
  refine ⟨fun hc => ?_, fun _ t h => ?_, fun hw => ?_, fun hw => ?_, fun p t hl hp => ?_, fun p hn => ?_⟩
  · rw [doing_eventsOfTheSecond hs]
    refine ⟨?_, endSecond_of_nothing_due⟩
    have hclock := clock_endSecond s
    rw [exec_leaseClockTick hs, nowPlus_one (by rw [hclock]; exact hc), hclock]
    rfl
  · have ht := Host.Outcome.next.inj ((exec_leaseClockTick hs).symm.trans h)
    have hclock := clock_endSecond s
    have hwindow := window_endSecond s
    have hnotDue := notDue_endSecond s
    generalize s.endSecond = u at ht hclock hwindow hnotDue
    subst ht
    exact ⟨hwindow, fun p => hclock ▸ hnotDue p⟩
  · rw [exec_adoptionWindowClose hs, State.closeWindow, if_pos hw]
    rfl
  · rw [exec_adoptionWindowClose hs, State.closeWindow, if_neg hw]
  · exact (exec_endOfQuarantine s p hs).trans (congrArg _ (endQuarantine_eq_moved hl hp))
  · refine (exec_endOfQuarantine s p hs).trans (congrArg _ ((s.endQuarantine_spec p).resolve_right ?_))
    rintro ⟨t, hl, -⟩
    exact hn t hl

/-! ### O2: the millisecond -/

theorem doing_eventsOfTheMillisecond {s : State} (hs : Serving s) : doing eventsOfTheMillisecond s = s.endMillisecond :=
  doing_pairs (f := .offerTimeout) (g := .probeTimeout) (F := State.lapseRunOut) (G := State.probeRunOut)
    exec_offerTimeout exec_probeTimeout (fun s p => moves_lapseRunOut _ s p)
    (fun s p => moves_probeRunOut _ s p) (List.finRange 112) s hs

/-- No timer of an entry has run out: neither that of its probe nor that of its offer. -/
def NotRunOut (s : State) (p : Pool) : Prop :=
  (∀ c h n, s.leaseOf p ≠ .stale h c n (.waiting 0)) ∧ ∀ h c k o, s.leaseOf p = .offered h c k →
    s.lease.slots[k] = some o → o.phase ≠ .waiting 0

theorem endMillisecond_of_notRunOut {s : State} (h : ∀ p, NotRunOut s p) : s.endMillisecond = s := by
  refine List.foldlRecOn (motive := (· = s)) _ _ rfl ?_
  rintro u rfl p -
  obtain ⟨hprobe, hoffer⟩ := h p
  have hlapse : u.lapseRunOut p = u := by
    have hn : u.offerRunOut p = none := by
      unfold State.offerRunOut
      split
      · rename_i t c k hl
        split
        · rename_i o ho
          exact if_neg (hoffer t c k o hl ho)
        · rfl
      · rfl
    rw [State.lapseRunOut, hn]
  rw [hlapse]
  unfold State.probeRunOut
  split
  · exact absurd ‹_› (hprobe _ _ _)
  · rfl

theorem countDown_eq (s : State) :
    s.countDown = { s with lease := { s.lease with table := s.countDown.lease.table, slots := s.countDown.lease.slots } } := by
  simp only [State.countDown, State.withLease]

theorem entry_tick (e : Entry) : { e with lease := e.lease.tick } = match e.lease with
    | .stale h c n (.waiting m) => { e with lease := .stale h c n (.waiting (m - 1)) }
    | _ => e := by
  obtain ⟨l, evict, conflicts, mark⟩ := e
  cases l with
  | stale t c n phase => cases phase <;> rfl
  | _ => rfl

/-- Settles O2: the idle step is the end of the millisecond, and then the count of every running timer. -/
theorem emptyQueueIsOneMillisecond : Obligations.EmptyQueueIsOneMillisecond := by
  unfold Obligations.EmptyQueueIsOneMillisecond
  intro s hq
  refine ⟨s.millisecond, by rw [step, hq], fun hn => if_neg hn, fun hs => ?_⟩
  have hm : s.millisecond = s.endMillisecond.countDown := if_pos hs
  rw [hm, doing_eventsOfTheMillisecond hs]
  refine ⟨endMillisecond_of_notRunOut, countDown_eq _, fun k => ?_, fun p => ?_⟩
  · rw [State.countDown_lease_slots]
    cases s.endMillisecond.lease.slots[k] <;> rfl
  · generalize s.endMillisecond = u
    exact (State.entry_countDown u p).trans (entry_tick (u.entry p))

/-! ### O13: the lapse of an offer -/

/-- The lapse of an offer by its return state and the pinned flag (R13, R38). -/
theorem lapse_spec {s : State} {p : Pool} {t : Tag} {c : ClassId} {k : SlotId} {o : OfferSlot}
    (hl : s.leaseOf p = .offered t c k) (ht : o.tag = t) :
    (o.ret = .free → s.store.pinned p = false →
      s.lapse p o = moved s p (.free none) (p :: s.lease.freeList) (s.lease.slots.set k none)) ∧
    (o.ret = .reserved → s.store.pinned p = false →
      s.lapse p o = moved s p (.free none) (s.lease.freeList ++ [p]) (s.lease.slots.set k none)) ∧
    (o.ret ≠ .quarantine → s.store.pinned p = true →
      s.lapse p o = moved s p .reserved s.lease.freeList (s.lease.slots.set k none)) ∧
    (o.ret = .quarantine → Withdrawn s p t (s.lease.slots.set k none) (s.lapse p o)) := by
  have hheld : (s.leaseOf p).isFree = false := by rw [hl]; rfl
  have hslots : emptiedSlots s.lease.slots (s.leaseOf p) = s.lease.slots.set k none := by rw [hl]; rfl
  have hfree := fun x => State.toFree_spec s p none x hheld
  have hwithdraw := State.withdraw_spec s p o.tag hheld
  rw [hslots] at hwithdraw
  refine ⟨fun hr hp => ?_, fun hr hp => ?_, fun hr hp => ?_, fun hr => ?_⟩
  · have h : s.lapse p o = s.toFree p none .head := by rw [State.lapse, hr]
    rw [h, hfree, hp, hslots]
    rfl
  · have h : s.lapse p o = s.toFree p none .tail := by rw [State.lapse, hr]
    rw [h, hfree, hp, hslots]
    rfl
  · have h : ∃ x, s.lapse p o = s.toFree p none x := by
      cases hret : o.ret with
      | free => exact ⟨.head, by rw [State.lapse, hret]⟩
      | reserved => exact ⟨.tail, by rw [State.lapse, hret]⟩
      | quarantine => exact absurd hret hr
    obtain ⟨x, h⟩ := h
    rw [h, hfree, hp, hslots, if_pos rfl]
  · rw [State.lapse, hr]
    exact ht ▸ hwithdraw

theorem exec_offerTimeout_lapses {s : State} (hs : Serving s) {p : Pool} {t : Tag} {c : ClassId} {k : SlotId} {o : OfferSlot}
    (hl : s.leaseOf p = .offered t c k) (ho : s.lease.slots[k] = some o) (hph : o.phase = .waiting 0) :
    exec (.offerTimeout p) s = .next (s.lapse p o) := by
  have hrun : s.offerRunOut p = some o := by
    unfold State.offerRunOut
    rw [hl]
    simp only [ho, hph, if_true]
  rw [exec_offerTimeout s p hs, State.lapseRunOut, hrun]

/-- The drop of a copy of an offer ends the offer that matches and is QUEUED (R37). -/
theorem exec_offerDrop_lapses {s : State} {rest : List Report} {p : Pool} {t : Tag} {c : ClassId} {m : Half} {k : SlotId}
    {o : OfferSlot} (h : Reported s (.outcome (.offer t p c m) false) rest) (hon : (taken s rest).offerOn t p = some (k, o))
    (hph : o.phase = .queued) : exec (.offerDrop t p) s = .next ((taken s rest).lapse p o) := by
  rw [exec, execOfferDrop, takeNews_reported _ h (by simp [Report.isOfferOutcome]), hon]
  exact congrArg _ (if_pos hph)

/-- The drop has no effect where no offer matches that is QUEUED (R37). -/
theorem exec_offerDrop_nothing {s : State} {rest : List Report} {p : Pool} {t : Tag} {c : ClassId} {m : Half}
    (h : Reported s (.outcome (.offer t p c m) false) rest)
    (hon : ∀ k o, (taken s rest).offerOn t p = some (k, o) → o.phase ≠ .queued) :
    exec (.offerDrop t p) s = .next (taken s rest) := by
  rw [exec, execOfferDrop, takeNews_reported _ h (by simp [Report.isOfferOutcome])]
  cases ho : (taken s rest).offerOn t p with
  | none => rfl
  | some ko => exact congrArg _ (if_neg (hon ko.1 ko.2 ho))

theorem offerOn_of_offered {s : State} {p : Pool} {t : Tag} {c : ClassId} {k : SlotId} {o : OfferSlot}
    (hl : s.leaseOf p = .offered t c k) (ho : s.lease.slots[k] = some o) (ht : o.tag = t) (ha : o.addr = p) :
    s.offerOn t p = some (k, o) := by
  unfold State.offerOn
  rw [hl]
  simp only [ho, ht, ha, and_self, if_true]

/-- Settles O13: timeout and drop come to the same lapse, on the state that the drop's report has left. -/
theorem lapseOfAnOffer : Obligations.LapseOfAnOffer := by
  unfold Obligations.LapseOfAnOffer
  refine ⟨fun s v p t c k o command hl ho ht ha h => ?_, fun s rest p t c' m h => ⟨fun c k o n hl ho hph => ?_, fun hlaw hn => ?_⟩⟩
  · have run : exec command s = .next (v.lapse p o) ∧ v.lease = s.lease ∧ v.store = s.store := by
      rcases h with ⟨hs, hph, rfl, rfl⟩ | ⟨rest, c', m, hr, hph, rfl, rfl⟩
      · exact ⟨exec_offerTimeout_lapses hs hl ho hph, rfl, rfl⟩
      · have hon : (taken s rest).offerOn t p = some (k, o) := offerOn_of_offered hl ho ht ha
        exact ⟨exec_offerDrop_lapses hr hon hph, rfl, rfl⟩
    obtain ⟨hexec, hlease, hstore⟩ := run
    have hlv : v.leaseOf p = .offered t c k := by
      rw [← hl, State.leaseOf, State.entry, hlease]
      rfl
    obtain ⟨hfree, hreserved, hpinned, hquarantine⟩ := lapse_spec hlv ht
    rw [hexec, ← hlease, ← hstore]
    exact ⟨fun hr hp => congrArg _ (hfree hr hp), fun hr hp => congrArg _ (hreserved hr hp),
      fun hr hp => congrArg _ (hpinned hr hp), fun hr => ⟨_, rfl, hquarantine hr⟩⟩
  · refine exec_offerDrop_nothing h fun j o' hon => ?_
    obtain ⟨-, -, ho', u, d, hl'⟩ := State.offerOn_eq_some hon
    obtain ⟨rfl, rfl, rfl⟩ := Lease.offered.inj (hl.symm.trans hl')
    obtain rfl := Option.some.inj (ho.symm.trans ho')
    rw [hph]
    nofun
  · refine exec_offerDrop_nothing h fun j o' hon => ?_
    obtain ⟨-, -, -, u, d, hl'⟩ := State.offerOn_eq_some hon
    have hh := holder_of_offerOn (s := taken s rest) hlaw hon
    rw [hl'] at hh
    obtain rfl := Option.some.inj hh
    exact absurd hl' (hn d j)

/-! ### O10: the end of the scan -/

@[simp] theorem entry_build {s : State} {st : Store} (h : s.lease = buildLeaseEngine st) (p : Pool) :
    s.entry p = ⟨if st.pinned p then .reserved else .free none, .absent, 0, false⟩ := by
  simp [State.entry, h, buildLeaseEngine, Entry.blank]

/-- With nothing left to erase or to repair, the scan ends (R149). -/
theorem exec_scanEnd {s : State} {tried : List SectorId} {inconsistent touched : Bool} (hp : s.power = .running)
    (hm : s.store.mode = .scanning ⟨.repairing [] tried, inconsistent, touched⟩) :
    exec .scanEnd s = .next (s.endScan s.store (scanOutcome inconsistent touched)) := by
  have ha : s.store.afterErases = s.store := by
    rw [Store.afterErases, hm]
  rw [exec, execScanEnd, whenRunning_running _ hp, ha, hm]

/-- Settles O10: the end of the scan field by field, and on the erased flash of State.reset. -/
theorem scanEndBuildsTheTable : Obligations.ScanEndBuildsTheTable := by
  unfold Obligations.ScanEndBuildsTheTable
  refine ⟨fun s tried inconsistent touched hp hm => ?_, _, rfl, ?_⟩
  · refine ⟨_, exec_scanEnd hp hm, rfl, rfl, rfl, rfl, rfl, rfl, rfl, rfl, rfl, rfl, rfl, fun k => ?_, fun p => ?_, rfl⟩
    · exact Vector.getElem_replicate k.isLt
    · exact entry_build rfl p
  · decide +kernel

/-! ### O53: the state after reset -/

theorem storeLaws_reset : StoreLaws State.reset := by
  have hmap : MapLaw State.reset.store ∧ CurrentValid State.reset.store := mapLaw_of_check (by decide)
  have hcovered : ∀ k : SectorId, Covered State.reset.store k := by
    intro k
    apply covered_of_check
    revert k
    decide
  exact ⟨fun h => absurd rfl h, hmap.1, List.nodup_nil, hmap.2, nofun, fun k => .inr (hcovered k)⟩

/-- Settles O53: the lease engine stands at its reset values, the bus is idle and empty, and the scan has nothing to erase. -/
theorem resetMeetsTheLaws : Obligations.ResetMeetsTheLaws := by
  unfold Obligations.ResetMeetsTheLaws
  refine ⟨tableLaws_notReady rfl, deadlineLaw_notReady rfl, ?_, replyLaw_of_empty rfl rfl, ?_, ?_, storeLaws_reset⟩
  · exact ⟨by decide, nofun, nofun, nofun, iff_of_false nofun nofun⟩
  · exact ⟨fun h => absurd rfl h, iff_of_false nofun fun h => h _ rfl, fun _ => nofun, fun _ => rfl⟩
  · refine bindingLaws_of_scanning ?_ ⟨_, rfl⟩ rfl
    intro j k b d hj
    simp [State.reset, Store.afterReset] at hj

end Sys2Proof.Machine
end

section
/-! PROOFS. Withhold on and off (O43) and Restart (O46). -/

namespace Sys2Proof.Machine

open Sys2Proof.Safety

/-! ### O43: Withhold -/

theorem poolByte_of_poolOfByte {b : Byte} {p : Pool} (h : poolOfByte b = some p) : b = poolByte p := by
  unfold poolOfByte at h
  split at h
  · rename_i hb
    obtain rfl := Option.some.inj h
    apply BitVec.eq_of_toNat_eq
    rw [poolByte_toNat]
    exact (Nat.sub_add_cancel hb.1).symm
  · cases h

/-- An address outside the pool and an option other than 0x00 and 0x01 are BAD_PARAM (R176). -/
theorem ownWithhold_bad {a o : Byte} (h : (∀ p, a ≠ poolByte p) ∨ (o ≠ 0x00 ∧ o ≠ 0x01)) (s : State) :
    ownWithhold [a, o] s = .badParam s := by
  cases hp : poolOfByte a with
  | none => simp only [ownWithhold, hp]
  | some p =>
    obtain ⟨h0, h1⟩ := h.resolve_left fun hn => hn p (poolByte_of_poolOfByte hp)
    simp only [ownWithhold, hp, if_neg h1, if_neg h0]

theorem exec_withholdOn {s : State} {a o : Byte} (h : Asked s .withhold [a, o]) (ho : o ≠ 0x00) {x : Answer}
    (hx : ownWithhold [a, o] s = x) : exec (.withholdOn [a, o]) s = .next (replied x.state x.status .withhold x.data) := by
  have hoption : ¬ hasOption [a, o] 0x00 = true := by simpa [hasOption] using ho
  subst hx
  rw [exec, execWithholdOn, if_neg hoption, serve_asked _ h]
  rfl

theorem exec_withholdOff {s : State} {a o : Byte} (h : Asked s .withhold [a, o]) (ho : o ≠ 0x01) {x : Answer}
    (hx : ownWithhold [a, o] s = x) : exec (.withholdOff [a, o]) s = .next (replied x.state x.status .withhold x.data) := by
  have hoption : ¬ hasOption [a, o] 0x01 = true := by simpa [hasOption] using ho
  subst hx
  rw [exec, execWithholdOff, if_neg hoption, serve_asked _ h]
  rfl

theorem ownWithhold_on (s : State) (p : Pool) : ownWithhold [poolByte p, 0x01] s = s.withhold p := by
  simp only [ownWithhold, poolOfByte_poolByte, if_true]

theorem ownWithhold_off (s : State) (p : Pool) : ownWithhold [poolByte p, 0x00] s = s.unwithhold p := by
  simp only [ownWithhold, poolOfByte_poolByte, if_true]
  exact if_neg (by decide)

/-- Settles O43: the branches of the two forms, each a move of the entry or none. -/
theorem withholdOnAndOff : Obligations.WithholdOnAndOff := by
  unfold Obligations.WithholdOnAndOff
  refine ⟨fun s a o h hbad => ⟨fun ho => exec_withholdOn h ho (ownWithhold_bad hbad s),
    fun ho => exec_withholdOff h ho (ownWithhold_bad hbad s)⟩, fun s p => ⟨fun h => ?_, fun h => ?_⟩⟩
  · have run : ∀ {x : Answer}, s.withhold p = x →
        exec (.withholdOn [poolByte p, 0x01]) s = .next (replied x.state x.status .withhold x.data) :=
      fun hx => exec_withholdOn h (by decide) ((ownWithhold_on s p).trans hx)
    refine ⟨fun hr => run (x := .refused s .pinned) ?_, fun hp => ⟨fun l hl => ?_, fun t d hl => ?_, fun hl => ?_, fun hl => ?_⟩⟩
    · unfold State.withhold
      split
      · rfl
      · rw [hr.resolve_left ‹_›]
    · have hx : s.withhold p = .ok (s.changeLease p .withheld .tail) [] := by
        rw [State.withhold, hp, hl]
        rfl
      rw [State.changeLease_eq_moved, hl, moveInFreeList_leave _ rfl rfl] at hx
      exact run hx
    · have hx : s.withhold p = .ok (s.changeLease p .withheld .tail) [] := by
        rw [State.withhold, hp, hl]
        rfl
      rw [State.changeLease_eq_moved, hl, moveInFreeList_held _ rfl rfl] at hx
      exact run hx
    · refine run (x := .ok s []) ?_
      rw [State.withhold, hp, hl]
      rfl
    · refine run (x := .refused s .held) ?_
      rw [State.withhold, hp]
      cases hlease : s.leaseOf p with
      | offered t c k => rfl
      | live t c d => rfl
      | stale t c n phase => rfl
      | _ => exact absurd (congrArg Lease.holder hlease) hl
  · have run : ∀ {x : Answer}, s.unwithhold p = x →
        exec (.withholdOff [poolByte p, 0x00]) s = .next (replied x.state x.status .withhold x.data) :=
      fun hx => exec_withholdOff h (by decide) ((ownWithhold_off s p).trans hx)
    refine ⟨fun hl hp => ?_, fun hl => run (x := .refused s .nothing) ?_⟩
    · have hx : s.unwithhold p = .ok (s.toFree p none .tail) [] := by rw [State.unwithhold, hl]
      rw [State.toFree_spec s p _ _ (by rw [hl]; rfl), hp, hl] at hx
      exact run hx
    · unfold State.unwithhold
      split
      · exact absurd ‹_› hl
      · rfl

/-! ### O46: Restart -/

theorem not_mem_restarted (b : BusEngine) (sent : Nat) (outbid : Bool) (src : Byte) (r : Request) :
    .request src r ∉ (b.restarted sent outbid).reports := fun h => nomatch (List.mem_filter.mp h).2

/-- Only requests hold a place in reserve, and a Restart discards them (R108, R122). -/
theorem reserved_restarted (b : BusEngine) (sent : Nat) (outbid : Bool) : (b.restarted sent outbid).reserved = 0 := by
  refine List.countP_eq_zero.mpr fun r hr => ?_
  cases r with
  | request src r => exact absurd hr (not_mem_restarted b sent outbid src r)
  | snoop _ => nofun
  | outcome _ _ => nofun

/-- Settles O46: the restarted state field by field. -/
theorem restartRebuilds : Obligations.RestartRebuilds := by
  unfold Obligations.RestartRebuilds
  intro s sent outbid h
  have hexec : exec (.restart [] sent outbid) s = .next ((s.restart sent outbid).putReply ⟨.ok, 0x7E, []⟩) := by
    rw [exec, execRestart, serve_asked _ h]
    rfl
  refine ⟨_, hexec, rfl, rfl, rfl, rfl, rfl, rfl, rfl, rfl, rfl, rfl, reserved_restarted _ _ _, not_mem_restarted _ _ _,
    fun bytes he => ?_, fun bytes he => ?_, rfl, rfl, rfl, rfl, rfl, fun k => Vector.getElem_replicate k.isLt,
    fun p => entry_build rfl p, rfl⟩
  · have hcut : (s.bus.restarted sent outbid).lastCut = some (cutOf bytes sent outbid) := by
      rw [BusEngine.restarted, he]
      rfl
    exact hcut
  · have hcut : (s.bus.restarted sent outbid).lastCut = some (cutOf bytes (8 * bytes.length) outbid) := by
      rw [BusEngine.restarted, he]
      rfl
    exact hcut

end Sys2Proof.Machine
end

section
/-! PROOFS. Hard reset and loss of supply over the flash that a cut leaves (O6). -/

namespace Sys2Proof.Machine

open Sys2Proof.Safety

theorem getElem_set_same (v : Vector Sector 5) (k : SectorId) (x : Sector) : (v.set k x)[k] = x :=
  Vector.getElem_set_self k.isLt

theorem getElem_set_other (v : Vector Sector 5) {k j : SectorId} (h : j ≠ k) (x : Sector) : (v.set k x)[j] = v[j] :=
  Vector.getElem_set_ne k.isLt j.isLt (Fin.val_ne_of_ne h.symm)

/-- A cut erase leaves the sector partial or as it was, and never erased (R145). -/
theorem eraseLeft_spec (before reads : Sector) :
    (classify (eraseLeft before reads) = .partially ∨ eraseLeft before reads = before) ∧
      eraseLeft before reads ≠ blankSector :=
  ⟨(eraseLeft_cases before reads).imp_right And.left, eraseLeft_ne_blank before reads⟩

/-! ### The flash that a cut leaves, by the operation in progress -/

theorem cutFlash_at_rest {st : Store} (cut : FlashCut)
    (h : st.mode = .ready ∨ st.mode = .degraded ∨ ∃ i x, st.mode = .scanning ⟨.notBegun, i, x⟩) :
    st.cutFlash cut = st.flash := by
  rcases h with h | h | ⟨i, x, h⟩ <;> rw [Store.cutFlash, h]

theorem cutFlash_eraseTarget {st : Store} (cut : FlashCut) {r : Rewrite} (hm : st.mode = .rewriting r)
    (hr : r.step = .eraseTarget) :
    st.cutFlash cut = st.flash.set r.target (eraseLeft (st.flash[r.target]) cut.reads) := by
  simp only [Store.cutFlash, hm, hr]

theorem cutFlash_eraseOld {st : Store} (cut : FlashCut) {r : Rewrite} {b : Bool} {k : SectorId} {q : Half}
    (hm : st.mode = .rewriting r) (hr : r.step = .eraseOld b) (hk : st.current[r.logical] = some (k, q)) :
    st.cutFlash cut = st.flash.set k (eraseLeft (st.flash[k]) cut.reads) := by
  simp only [Store.cutFlash, hm, hr, hk]

theorem cutFlash_eraseOld_none {st : Store} (cut : FlashCut) {r : Rewrite} {b : Bool} (hm : st.mode = .rewriting r)
    (hr : r.step = .eraseOld b) (hk : st.current[r.logical] = none) : st.cutFlash cut = st.flash := by
  simp only [Store.cutFlash, hm, hr, hk]

/-- Before the old sector is erased, a rewrite operates on its target alone (R138). -/
theorem cutFlash_target {st : Store} (cut : FlashCut) {r : Rewrite} (hm : st.mode = .rewriting r)
    (hr : ∀ b, r.step ≠ .eraseOld b) : ∃ x, st.cutFlash cut = st.flash.set r.target x := by
  simp only [Store.cutFlash, hm]
  split
  · exact ⟨_, rfl⟩
  · exact ⟨_, rfl⟩
  · exact ⟨_, rfl⟩
  · exact absurd ‹_› (hr _)

theorem cutFlash_erasing {st : Store} (cut : FlashCut) {j : SectorId} {rest : List SectorId} {i x : Bool}
    (hm : st.mode = .scanning ⟨.erasing (j :: rest), i, x⟩) :
    st.cutFlash cut = st.flash.set j (eraseLeft (st.flash[j]) cut.reads) := by
  simp only [Store.cutFlash, hm]

/-- The sector that a repair tries is erased, and the lowest that it has not tried (R148; log 9). -/
theorem nextTarget_eq_some {st : Store} {tried : List SectorId} {k : SectorId} (h : st.nextTarget tried = some k) :
    st.erased[k] = true ∧ k ∉ tried ∧ ∀ j : SectorId, j < k → st.erased[j] = true → j ∈ tried := by
  obtain ⟨hk, n, hn, rfl, hbefore⟩ := List.find?_eq_some_iff_getElem.mp h
  rw [List.getElem_finRange] at hk ⊢
  simp only [Bool.and_eq_true, Bool.not_eq_true', List.contains_eq_mem, decide_eq_false_iff_not] at hk
  refine ⟨hk.1, hk.2, fun j hj he => ?_⟩
  have hnot := hbefore j.val hj
  rw [List.getElem_finRange] at hnot
  simpa [he] using hnot

/-- Of a repair in flight a cut reaches the current sector, as an erase, and the sector that the repair tries (R145,
R148). -/
theorem cutRepair_spec {st : Store} (cut : FlashCut) {l : LogicalId} {rest : List LogicalId} {tried : List SectorId}
    {i x : Bool} (hm : st.mode = .scanning ⟨.repairing (l :: rest) tried, i, x⟩) (k : SectorId) :
    (st.cutRepair cut)[k] = st.flash[k] ∨ st.nextTarget tried = some k ∨
      (∃ q, st.current[l] = some (k, q)) ∧ (st.cutRepair cut)[k] = eraseLeft (st.flash[k]) cut.reads := by
  have image : ∀ {t : SectorId} (y : Sector), st.nextTarget tried = some t →
      (st.flash.set t y)[k] = st.flash[k] ∨ st.nextTarget tried = some k := by
    intro t y ht
    by_cases hk : k = t
    · exact .inr (hk ▸ ht)
    · exact .inl (getElem_set_other _ hk y)
  have erase : ∀ (v : Vector Sector 5) {j : SectorId} {q : Half}, st.current[l] = some (j, q) →
      (v.set j (eraseLeft (st.flash[j]) cut.reads))[k] = v[k] ∨ (∃ q, st.current[l] = some (k, q)) ∧
        (v.set j (eraseLeft (st.flash[j]) cut.reads))[k] = eraseLeft (st.flash[k]) cut.reads := by
    intro v j q hj
    by_cases hk : k = j
    · subst hk
      exact .inr ⟨⟨q, hj⟩, getElem_set_same _ _ _⟩
    · exact .inl (getElem_set_other _ hk _)
  unfold Store.cutRepair
  rw [hm]
  dsimp only
  cases ht : st.nextTarget tried with
  | none =>
    cases hc : st.current[l] with
    | none => exact .inl rfl
    | some c => exact (hc ▸ erase st.flash hc).imp_right .inr
  | some t =>
    cases hstep : cut.step with
    | program => exact (ht ▸ image _ ht).imp_right .inl
    | mark => exact (ht ▸ image _ ht).imp_right .inl
    | erase =>
      cases hc : st.current[l] with
      | none => exact (ht ▸ image _ ht).imp_right .inl
      | some c =>
        rcases erase (st.flash.set t (programmed l (st.nextSeq l) true (imageSlots st.shadow l))) hc with h | h
        · exact (ht ▸ image _ ht).imp h.trans .inl
        · exact .inr (.inr ⟨hc ▸ h.1, h.2⟩)

theorem cutRepair_done {st : Store} (cut : FlashCut) {tried : List SectorId} {i x : Bool}
    (hm : st.mode = .scanning ⟨.repairing [] tried, i, x⟩) : st.cutRepair cut = st.flash := by
  rw [Store.cutRepair, hm]

/-- A cut among the repairs falls on a store that is repairing, with the same flash, current sectors and erased set. -/
theorem cutFlash_repairing {st : Store} (cut : FlashCut) {todo : List LogicalId} {tried : List SectorId} {i x : Bool}
    (h : st.mode = .scanning ⟨.repairing todo tried, i, x⟩ ∨
      st.mode = .scanning ⟨.erasing [], i, x⟩ ∧ todo = st.loadShadow.repairs ∧ tried = []) :
    ∃ st' : Store, st.cutFlash cut = st'.cutRepair cut ∧ (∃ i x, st'.mode = .scanning ⟨.repairing todo tried, i, x⟩) ∧
      st'.flash = st.flash ∧ st'.current = st.current ∧ st'.erased = st.erased := by
  rcases h with hm | ⟨hm, rfl, rfl⟩
  · exact ⟨st, by simp only [Store.cutFlash, hm], ⟨i, x, hm⟩, rfl, rfl, rfl⟩
  · refine ⟨st.afterErases, by simp only [Store.cutFlash, hm], ?_⟩
    rw [Store.afterErases, hm]
    exact ⟨⟨_, _, rfl⟩, rfl, rfl, rfl⟩

/-- Settles O6: the reset values by definition, and the cut flash operation by operation. -/
theorem hardResetAndPowerLoss : Obligations.HardResetAndPowerLoss := by
  unfold Obligations.HardResetAndPowerLoss
  intro s spd cut
  refine ⟨rfl, fun h => congrArg _ (if_neg h), fun h => congrArg _ (if_pos h), fun h => cutFlash_at_rest cut h,
    fun r hm k => ⟨fun hr hk => ?_, fun b q hr hk => ?_, fun hr hk => ?_, fun ⟨b, hr⟩ hk => ?_⟩, fun j rest i x hm => ?_,
    fun todo tried i x hm => ?_⟩
  · subst hk
    rw [cutFlash_eraseTarget cut hm hr, getElem_set_same]
    exact eraseLeft_spec _ _
  · beta_reduce
    rw [cutFlash_eraseOld cut hm hr hk, getElem_set_same]
    exact eraseLeft_spec _ _
  · obtain ⟨x, hx⟩ := cutFlash_target cut hm hr
    rw [hx, getElem_set_other _ hk]
  · cases hc : s.store.current[r.logical] with
    | none => rw [cutFlash_eraseOld_none cut hm hr hc]
    | some c =>
      have hne : k ≠ c.1 := fun h => hk c.2 (by rw [hc, h])
      rw [cutFlash_eraseOld cut hm hr hc, getElem_set_other _ hne]
  · rw [cutFlash_erasing cut hm]
    refine ⟨?_, fun k hk => getElem_set_other _ hk _⟩
    beta_reduce
    rw [getElem_set_same]
    exact eraseLeft_spec _ _
  · obtain ⟨st, hcut, ⟨i', x', hm'⟩, hflash, hcurrent, herased⟩ := cutFlash_repairing cut hm
    rw [hcut, ← hflash, ← hcurrent, ← herased]
    refine ⟨fun h => cutRepair_done cut (h ▸ hm'), fun l rest h k => ⟨fun _ he => ?_, fun hn hc => ?_⟩⟩
    · subst h
      rcases cutRepair_spec cut hm' k with h | h | ⟨-, h⟩
      · exact .inr h
      · rw [(nextTarget_eq_some h).1] at he
        cases he
      · rw [h]
        exact (eraseLeft_spec _ _).1
    · subst h
      rcases cutRepair_spec cut hm' k with h | h | ⟨⟨q, h⟩, -⟩
      · exact h
      · exact absurd (nextTarget_eq_some h) hn
      · exact absurd h (hc q)

end Sys2Proof.Machine
end

section
/-! PROOFS. Status as one reading (O37). -/

namespace Sys2Proof.Machine

open Sys2Proof.Safety

/-! ### The counts -/

theorem State.count_le (s : State) (k : LeaseState) : s.count k ≤ 112 :=
  List.countP_le_length.trans_eq (List.length_finRange ..)

theorem toNat_byteOf_count (s : State) (k : LeaseState) : (byteOf (s.count k)).toNat = s.count k := by
  have := s.count_le k
  simp only [byteOf, BitVec.toNat_ofNat]
  omega

/-- Every element has one of the seven states. -/
theorem sum_countP_state {α : Type} (f : α → LeaseState) (l : List α) :
    l.countP (f · == .free) + (l.countP (f · == .offered) + (l.countP (f · == .live) + (l.countP (f · == .stale) +
      (l.countP (f · == .quarantine) + (l.countP (f · == .reserved) + l.countP (f · == .withheld)))))) = l.length := by
  induction l with
  | nil => rfl
  | cons x l ih =>
    have one : ∀ k, (if k == LeaseState.free then 1 else 0) + ((if k == .offered then 1 else 0) + ((if k == .live then 1 else 0) +
      ((if k == .stale then 1 else 0) + ((if k == .quarantine then 1 else 0) + ((if k == .reserved then 1 else 0) +
        if k == .withheld then 1 else 0))))) = 1 := by
      intro k
      cases k <;> rfl
    have hx := one (f x)
    simp only [List.countP_cons, List.length_cons]
    omega

/-- The seven counts of a ready lease engine as bytes (R166). -/
def countBytes (s : State) : List Byte :=
  [byteOf (s.count .free), byteOf (s.count .offered), byteOf (s.count .live), byteOf (s.count .stale),
    byteOf (s.count .quarantine), byteOf (s.count .reserved), byteOf (s.count .withheld)]

theorem sum_countBytes (s : State) : ((countBytes s).map (·.toNat)).sum = 112 := by
  have h : _ = 112 := (sum_countP_state (fun p => (s.leaseOf p).state) pools).trans (List.length_finRange ..)
  simp only [countBytes, List.map_cons, List.map_nil, List.sum_cons, List.sum_nil, toNat_byteOf_count, Nat.add_zero]
  exact h

/-- A list of the addresses of a state, each once, is as long as the state's count. -/
theorem count_eq_length {s : State} {k : LeaseState} {l : List Pool} (hn : l.Nodup)
    (hm : ∀ p, p ∈ l ↔ (s.leaseOf p).state = k) : s.count k = l.length := by
  rw [State.count, List.countP_eq_length_filter]
  refine ((List.perm_ext_iff_of_nodup ((List.nodup_finRange 112).filter _) hn).mpr fun p => ?_).length_eq
  rw [List.mem_filter, hm, beq_iff_eq]
  exact and_iff_right (List.mem_finRange p)

theorem count_free {s : State} (h : FreeListLaw s) : s.count .free = s.lease.freeList.length :=
  count_eq_length h.1 fun p => (h.2 p).trans beq_iff_eq

/-- The addresses that the offer slots name. -/
def offeredAddresses (s : State) : List Pool := (List.finRange 8).filterMap fun k => (s.lease.slots[k]).map (·.addr)

theorem mem_offeredAddresses {s : State} {p : Pool} :
    p ∈ offeredAddresses s ↔ ∃ (k : SlotId) (o : OfferSlot), s.lease.slots[k] = some o ∧ o.addr = p := by
  simp [offeredAddresses]

theorem Lease.state_offered_iff {l : Lease} : l.state = .offered ↔ ∃ t c k, l = .offered t c k := by
  cases l <;> simp [Lease.state]

/-- No two slots name the same address, for its entry names one slot (R34). -/
theorem nodup_offeredAddresses {s : State} (h : OfferLaw s) : (offeredAddresses s).Nodup := by
  refine (List.nodup_finRange 8).filterMap fun j k p hj hk => ?_
  obtain ⟨o, ho, rfl⟩ := Option.map_eq_some_iff.mp hj
  obtain ⟨o', ho', haddr⟩ := Option.map_eq_some_iff.mp hk
  have hl := h.2 k o' ho'
  rw [haddr, h.2 j o ho] at hl
  exact (Lease.offered.inj hl).2.2

theorem count_offered {s : State} (h : OfferLaw s) :
    s.count .offered = (List.finRange 8).countP fun k => (s.lease.slots[k]).isSome := by
  have hmem : ∀ p, p ∈ offeredAddresses s ↔ (s.leaseOf p).state = .offered := by
    intro p
    rw [mem_offeredAddresses, Lease.state_offered_iff]
    constructor
    · rintro ⟨k, o, ho, rfl⟩
      exact ⟨_, _, _, h.2 k o ho⟩
    · rintro ⟨t, c, k, hl⟩
      obtain ⟨o, ho, haddr, -⟩ := h.1 p t c k hl
      exact ⟨k, o, ho, haddr⟩
  rw [count_eq_length (nodup_offeredAddresses h) hmem, offeredAddresses, List.length_filterMap_eq_countP]
  simp only [Option.isSome_map]

/-! ### The codes -/

theorem StoreMode.code_eq (m : StoreMode) : ∃ a : Fin 4, m.code = BitVec.ofNat 8 a := by
  cases m with
  | scanning _ => exact ⟨0, rfl⟩
  | ready => exact ⟨1, rfl⟩
  | rewriting _ => exact ⟨2, rfl⟩
  | degraded => exact ⟨3, rfl⟩

theorem Engine.code_eq (e : Engine) : ∃ b : Fin 4, e.code = BitVec.ofNat 8 b := by
  cases e with
  | idle _ => exact ⟨0, rfl⟩
  | receiving _ => exact ⟨1, rfl⟩
  | sending _ _ => exact ⟨2, rfl⟩
  | fault => exact ⟨3, rfl⟩

/-- The store state in bits 7 and 6, the window in bit 5, the bus engine state in bits 4 and 3 (10.5). -/
theorem packed_eq (m : StoreMode) (w : Bool) (e : Engine) : (m.code <<< 6) ||| flagBit w 5 ||| (e.code <<< 3) =
    byteOf (64 * m.code.toNat + 32 * (if w then 1 else 0) + 8 * e.code.toNat) := by
  have key : ∀ (a b : Fin 4) (w : Bool),
      (BitVec.ofNat 8 a <<< 6) ||| flagBit w 5 ||| (BitVec.ofNat 8 b <<< 3) =
        byteOf (64 * (BitVec.ofNat 8 a).toNat + 32 * (if w then 1 else 0) + 8 * (BitVec.ofNat 8 b).toNat) := by decide
  obtain ⟨a, ha⟩ := m.code_eq
  obtain ⟨b, hb⟩ := e.code_eq
  rw [ha, hb]
  exact key a b w

/-- The status byte of the store state, the window and the bus engine state. -/
def State.statusByte (s : State) : Byte :=
  (s.store.mode.code <<< 6) ||| flagBit (s.lease.ready && s.lease.window.isSome) 5 ||| (s.bus.engine.code <<< 3)

/-! ### The record -/

theorem statusRecord_ready {s : State} (hr : s.lease.ready = true) (hm : ∀ p, s.store.mode ≠ .scanning p) :
    s.statusRecord = [s.causeFlags, s.att.enables] ++ countBytes s ++
      [s.statusByte, byteOf s.store.erasedCount, byteOf s.store.bindingCount] ++ timeBytes s.lease.clock ++
      [byteOf s.bus.queue.length, s.store.last.code] ++ tagBytes s.store.last.tag := by
  unfold State.statusRecord State.statusByte
  cases hmode : s.store.mode with
  | scanning p => exact absurd hmode (hm p)
  | _ => rw [hr]; rfl

theorem timeBytes_zero : timeBytes 0 = [0, 0, 0, 0] := by decide

theorem tagBytes_zero : tagBytes 0 = [0, 0, 0, 0, 0, 0] := by decide

theorem statusRecord_notReady {s : State} (hr : s.lease.ready = false) {p : ScanProgress} (hm : s.store.mode = .scanning p) :
    s.statusRecord = [s.causeFlags, s.att.enables] ++ [112, 0, 0, 0, 0, 0, 0] ++ [s.statusByte, 0, 0] ++ timeBytes 0 ++
      [byteOf s.bus.queue.length, 0] ++ tagBytes 0 := by
  unfold State.statusRecord State.statusByte
  rw [hr, hm]
  rfl

/-- Settles O37: the record of a ready engine and that of an engine not ready, field by field. -/
theorem statusIsOneReading : Obligations.StatusIsOneReading := by
  unfold Obligations.StatusIsOneReading
  rintro s h ⟨hfree, hoffer, -⟩ ⟨-, hgate, -, -⟩
  have hexec : exec (.status []) s = .next (replied s .ok .status s.statusRecord) := by
    rw [exec, execStatus, serve_asked _ h]
    rfl
  refine ⟨s.statusRecord, hexec, s.length_statusRecord, ?_⟩
  have hbyte : s.statusByte = byteOf (64 * (match s.store.mode with
        | .scanning _ => 0
        | .ready => 1
        | .rewriting _ => 2
        | .degraded => 3) +
      32 * (if s.lease.ready = true ∧ s.lease.window ≠ none then 1 else 0) + 8 * (match s.bus.engine with
        | .idle _ => 0
        | .receiving _ => 1
        | .sending _ _ => 2
        | .fault => 3)) := by
    have hw : (s.lease.ready && s.lease.window.isSome) = true ↔ s.lease.ready = true ∧ s.lease.window ≠ none := by
      rw [Bool.and_eq_true, Option.isSome_iff_ne_none]
    rw [State.statusByte, packed_eq, if_congr hw rfl rfl]
    cases s.store.mode <;> cases s.bus.engine <;> rfl
  by_cases hr : s.lease.ready = true
  · rw [statusRecord_ready hr (hgate.mp hr)]
    refine ⟨rfl, rfl, sum_countBytes s, fun _ => ⟨rfl, ?_, ?_, rfl, rfl, rfl⟩, fun hn => absurd hr (by simp [hn]),
      congrArg some hbyte, fun _ => ?_, rfl⟩
    · rw [← count_free hfree]
      rfl
    · rw [← count_offered hoffer]
      rfl
    · cases s.store.last with
      | none => rfl
      | scan o => cases o <;> rfl
      | bind t o => cases o <;> rfl
      | unbind t o => cases o <;> rfl
  · have hscan : ∃ p, s.store.mode = .scanning p := not_forall_not.mp (hr ∘ hgate.mpr)
    obtain ⟨p, hp⟩ := hscan
    rw [statusRecord_notReady (eq_false_of_ne_true hr) hp, timeBytes_zero, tagBytes_zero]
    exact ⟨rfl, rfl, rfl, fun h => absurd h hr, fun _ => ⟨rfl, rfl, rfl⟩, congrArg some hbyte, fun h => absurd h hr, rfl⟩

end Sys2Proof.Machine
end

section
/-! PROOFS. The order of address choice (O16), the JOIN that makes an offer and the JOIN that makes none (O17, O18), the CLAIM
(O19), and the reports of outcomes (O15). -/

namespace Sys2Proof.Machine

open Sys2Proof.Safety

/-! ### Searches for the lowest -/

/-- A search in ascending order finds the lowest. -/
theorem find?_finRange_eq_some_iff {n : Nat} {f : Fin n → Bool} {i : Fin n} :
    (List.finRange n).find? f = some i ↔ f i = true ∧ ∀ j, j < i → f j = false := by
  rw [← Fin.find?_eq_find?_finRange, Fin.find?_eq_some_iff]

theorem Lease.quarantine_for_iff {l : Lease} {t : Tag} :
    (l.state == .quarantine && l.last == some t) = true ↔ ∃ d, l = .quarantine t d := by
  cases l <;> simp [Lease.state, Lease.last]

theorem Lease.free_for_iff {l : Lease} {t : Tag} : (l.isFree && l.last == some t) = true ↔ l = .free (some t) := by
  cases l <;> simp [Lease.isFree, Lease.state, Lease.last]

theorem State.quarantinedFor_of_lowest {s : State} {t : Tag} {p : Pool} {d : LeaseTime} (h : s.leaseOf p = .quarantine t d)
    (hlow : ∀ q d', q < p → s.leaseOf q ≠ .quarantine t d') : s.quarantinedFor t = some p := by
  refine find?_finRange_eq_some_iff.2 ⟨Lease.quarantine_for_iff.2 ⟨d, h⟩, fun q hq => eq_false_of_ne_true fun hf => ?_⟩
  obtain ⟨d', hd'⟩ := Lease.quarantine_for_iff.1 hf
  exact hlow q d' hq hd'

theorem State.quarantinedFor_of_none {s : State} {t : Tag} (h : ∀ p d, s.leaseOf p ≠ .quarantine t d) :
    s.quarantinedFor t = none := by
  refine List.find?_eq_none.2 fun p _ hf => ?_
  obtain ⟨d, hd⟩ := Lease.quarantine_for_iff.1 hf
  exact h p d hd

theorem State.freeFor_of_lowest {s : State} {t : Tag} {p : Pool} (h : s.leaseOf p = .free (some t))
    (hlow : ∀ q, q < p → s.leaseOf q ≠ .free (some t)) : s.freeFor t = some p :=
  find?_finRange_eq_some_iff.2
    ⟨Lease.free_for_iff.2 h, fun q hq => eq_false_of_ne_true fun hf => hlow q hq (Lease.free_for_iff.1 hf)⟩

theorem State.freeFor_of_none {s : State} {t : Tag} (h : ∀ p, s.leaseOf p ≠ .free (some t)) : s.freeFor t = none :=
  List.find?_eq_none.2 fun p _ hf => h p (Lease.free_for_iff.1 hf)

theorem State.freeSlot_of_lowest {s : State} {k : SlotId} (h : s.lease.slots[k] = none)
    (hlow : ∀ j : SlotId, j < k → s.lease.slots[j] ≠ none) : s.freeSlot = some k :=
  find?_finRange_eq_some_iff.2 ⟨Option.isNone_iff_eq_none.2 h, fun j hj => Option.isNone_eq_false_iff.2
    (Option.isSome_iff_ne_none.2 (hlow j hj))⟩

theorem State.freeSlot_of_full {s : State} (h : ∀ k : SlotId, s.lease.slots[k] ≠ none) : s.freeSlot = none :=
  List.find?_eq_none.2 fun k _ hk => h k (Option.isNone_iff_eq_none.1 hk)

/-! ### O16: the order of address choice -/

theorem State.hintFree_of_free {s : State} {h : Byte} {p : Pool} {last : Option Tag} (hp : poolOfByte h = some p)
    (hl : s.leaseOf p = .free last) : s.hintFree h = some p := by
  rw [State.hintFree, hp, Option.bind_some, hl]
  rfl

theorem State.hintFree_of_not_free {s : State} {h : Byte}
    (hn : ∀ p last, poolOfByte h = some p → s.leaseOf p ≠ .free last) : s.hintFree h = none := by
  refine Option.bind_eq_none_iff.2 fun p hp => if_neg fun hf => ?_
  obtain ⟨last, hl⟩ := Lease.isFree_iff.1 hf
  exact hn p last hp hl

/-- Cases 1 and 2: the tag holds an entry (R25, R26). -/
theorem State.chooseAddress_holding {s : State} {t : Tag} {h : Byte} {p : Pool} (hone : OneHolderLaw s)
    (hp : (s.leaseOf p).holder = some t) :
    s.chooseAddress t h = if (s.leaseOf p).state = .offered then .duplicate p else .offer p .quarantine := by
  rw [State.chooseAddress, State.holding_of_holder hone hp]

/-- Case 3: the tag holds nothing and has a binding (R27). -/
theorem State.chooseAddress_bound {s : State} {t : Tag} {h : Byte} {b : Binding} (hn : HoldsNothing s t)
    (hb : s.store.bindingOf t = some b) : s.chooseAddress t h = .offer b.addr .reserved := by
  rw [State.chooseAddress, State.holding_eq_none.2 hn, hb]

/-- Case 4: an address is in quarantine from the tag (R28). -/
theorem State.chooseAddress_quarantined {s : State} {t : Tag} {h : Byte} {p : Pool} (hn : HoldsNothing s t)
    (hu : Unbound s t) (hq : s.quarantinedFor t = some p) : s.chooseAddress t h = .offer p .quarantine := by
  rw [State.chooseAddress, State.holding_eq_none.2 hn, State.bindingOf_eq_none hu, hq]

/-- Cases 5 to 8 remain (R29 to R31). -/
theorem State.chooseAddress_free {s : State} {t : Tag} {h : Byte} (hn : HoldsNothing s t) (hu : Unbound s t)
    (hq : s.quarantinedFor t = none) : s.chooseAddress t h = s.chooseFree t h := by
  rw [State.chooseAddress, State.holding_eq_none.2 hn, State.bindingOf_eq_none hu, hq]

/-- Case 5: the hint (R29). -/
theorem State.chooseFree_hint {s : State} {t : Tag} {h : Byte} {p : Pool} (hh : s.hintFree h = some p) :
    s.chooseFree t h = .offer p .free := by
  rw [State.chooseFree, hh]

/-- Case 6: the address that the tag had last (R30). -/
theorem State.chooseFree_last {s : State} {t : Tag} {h : Byte} {p : Pool} (hh : s.hintFree h = none)
    (hf : s.freeFor t = some p) : s.chooseFree t h = .offer p .free := by
  rw [State.chooseFree, hh, hf]

/-- Case 7: the head of the free list (R31). -/
theorem State.chooseFree_head {s : State} {t : Tag} {h : Byte} {p : Pool} {fl : List Pool} (hh : s.hintFree h = none)
    (hf : s.freeFor t = none) (hl : s.lease.freeList = p :: fl) : s.chooseFree t h = .offer p .free := by
  rw [State.chooseFree, hh, hf, hl]

/-- Case 8: no address is free (R31). -/
theorem State.chooseFree_empty {s : State} {t : Tag} {h : Byte} (hh : s.hintFree h = none) (hf : s.freeFor t = none)
    (hl : s.lease.freeList = []) : s.chooseFree t h = .poolEmpty := by
  rw [State.chooseFree, hh, hf, hl]

/-- Settles O16: each case is reached where the searches of the cases before it find nothing. -/
theorem orderOfAddressChoice : Obligations.OrderOfAddressChoice := by
  unfold Obligations.OrderOfAddressChoice
  intro s t h htable hshadow
  obtain ⟨-, -, hone⟩ := htable
  have holds : ∀ p l, s.leaseOf p = l → l.holder = some t →
      s.chooseAddress t h = if l.state = .offered then .duplicate p else .offer p .quarantine := by
    rintro p l rfl hp
    exact State.chooseAddress_holding hone hp
  refine ⟨fun p c k hl => holds p _ hl rfl, fun p c d hl => holds p _ hl rfl, fun p c n f hl => holds p _ hl rfl,
    fun hn => ⟨?bound, fun hu => ⟨?quarantined, fun hq => ?free⟩⟩⟩
  case bound =>
    rintro j b hb rfl
    exact State.chooseAddress_bound hn (Store.bindingOf_of_binding hshadow hb)
  case quarantined =>
    exact fun p d hl hlow => State.chooseAddress_quarantined hn hu (State.quarantinedFor_of_lowest hl hlow)
  case free =>
    rw [State.chooseAddress_free hn hu (State.quarantinedFor_of_none hq)]
    refine ⟨fun p last hp hl => State.chooseFree_hint (State.hintFree_of_free hp hl), fun hh => ?_⟩
    have hhint := State.hintFree_of_not_free hh
    refine ⟨fun p hl hlow => State.chooseFree_last hhint (State.freeFor_of_lowest hl hlow), fun hf => ?_⟩
    have hlast := State.freeFor_of_none hf
    exact ⟨fun p fl hl => State.chooseFree_head hhint hlast hl, State.chooseFree_empty hhint hlast⟩

/-! ### O17, O18: the JOIN -/

theorem exec_join {s : State} {rest : List Report} {t : Tag} {cls h : Byte}
    (hr : Reported s (.request 0x0F (.join t cls h)) rest) :
    exec (.join t cls h) s = .next ((taken s rest).join t cls h) :=
  takeRequest_reported (fun s => s.join t cls h) hr

theorem classOfByte_eq_none {b : Byte} (h : 4 ≤ b.toNat) : classOfByte b = none := dif_neg (Nat.not_lt.2 h)

theorem classOfByte_eq_some {b : Byte} (h : b.toNat < 4) : ∃ c, classOfByte b = some c := ⟨_, dif_pos h⟩

/-- Everything that a new offer does, of an address that is not OFFERED (R32). -/
theorem State.makeOffer_spec {s : State} (k : SlotId) (t : Tag) {p : Pool} (c : ClassId) (ret : ReturnState)
    (h : (s.leaseOf p).slot = none) :
    s.makeOffer k t p c ret = queued
      (moved s p (.offered t c k) (if (s.leaseOf p).isFree then s.lease.freeList.erase p else s.lease.freeList)
        (s.lease.slots.set k (some ⟨t, p, c, s.term c, ret, .queued⟩)))
      (.offer t p c (s.term c)) := by
  have hslots : emptiedSlots s.lease.slots (s.leaseOf p) = s.lease.slots := by
    rw [emptiedSlots, h]
  rw [State.makeOffer, State.changeLease_eq_moved, hslots]
  rfl

theorem State.join_badClass {s : State} (t : Tag) {cls : Byte} (h : Byte) (hc : classOfByte cls = none) :
    s.join t cls h = queued s (.refuse 0x0F t .badClass) := by
  rw [State.join, hc]
  rfl

theorem State.join_duplicate {s : State} {t : Tag} {cls h : Byte} {c : ClassId} {p : Pool} (hc : classOfByte cls = some c)
    (hch : s.chooseAddress t h = .duplicate p) : s.join t cls h = s.repeatOffer p := by
  simp only [State.join, hc, hch]

theorem State.join_poolEmpty {s : State} {t : Tag} {cls h : Byte} {c : ClassId} (hc : classOfByte cls = some c)
    (hch : s.chooseAddress t h = .poolEmpty) : s.join t cls h = s.refuseJoin t .poolEmpty := by
  simp only [State.join, hc, hch]

theorem State.join_full {s : State} {t : Tag} {cls h : Byte} {c : ClassId} {p : Pool} {ret : ReturnState}
    (hc : classOfByte cls = some c) (hch : s.chooseAddress t h = .offer p ret) (hk : s.freeSlot = none) :
    s.join t cls h = s.refuseJoin t .offersFull := by
  simp only [State.join, hc, hch, hk]

theorem State.join_offer {s : State} {t : Tag} {cls h : Byte} {c : ClassId} {p : Pool} {ret : ReturnState} {k : SlotId}
    (hc : classOfByte cls = some c) (hch : s.chooseAddress t h = .offer p ret) (hk : s.freeSlot = some k) :
    s.join t cls h = s.makeOffer k t p (s.offerClass t p c) ret := by
  simp only [State.join, hc, hch, hk]

theorem State.repeatOffer_offered {s : State} {p : Pool} {t : Tag} {c : ClassId} {k : SlotId} {o : OfferSlot}
    (hl : s.leaseOf p = .offered t c k) (ho : s.lease.slots[k] = some o) :
    s.repeatOffer p = queued s (.offer o.tag o.addr o.cls o.term) := by
  simp only [State.repeatOffer, hl, ho]
  rfl

theorem State.refuseJoin_spec (s : State) (t : Tag) (r : RefuseReason) :
    s.refuseJoin t r = flagged (queued s (.refuse 0x0F t r)) { s.att.latched with exhaust := true } := rfl

/-- Settles O17: the choice and the lowest empty slot lead to the new offer, on the state that the request has left. -/
theorem joinMakesAnOffer : Obligations.JoinMakesAnOffer := by
  unfold Obligations.JoinMakesAnOffer
  intro s rest t cls h c p ret k hr hc hch hno hk hlow
  have hslot : (s.leaseOf p).slot = none := by
    refine Option.eq_none_iff_forall_ne_some.2 fun j hj => ?_
    obtain ⟨t', c', hl⟩ := Lease.slot_eq_some.1 hj
    exact hno t' c' j hl
  have hjoin : (taken s rest).join t cls h = (taken s rest).makeOffer k t p (s.offerClass t p c) ret :=
    State.join_offer hc hch (State.freeSlot_of_lowest (s := taken s rest) hk hlow)
  rw [exec_join hr, hjoin, State.makeOffer_spec k t _ ret (s := taken s rest) hslot]
  rfl

/-- Settles O18: the class is looked at first, then the choice, then the slots. -/
theorem joinWithoutAnOffer : Obligations.JoinWithoutAnOffer := by
  unfold Obligations.JoinWithoutAnOffer
  intro s rest t cls h hr
  rw [exec_join hr]
  refine ⟨fun hcls => congrArg _ (State.join_badClass t h (classOfByte_eq_none hcls)), fun hcls => ?_⟩
  obtain ⟨c, hc⟩ := classOfByte_eq_some hcls
  refine ⟨fun p c' k o hch hl ho => ?duplicate, fun hch => ?poolEmpty, fun p ret hch hfull => ?full⟩
  case duplicate =>
    have hjoin : (taken s rest).join t cls h = (taken s rest).repeatOffer p := State.join_duplicate hc hch
    rw [hjoin, State.repeatOffer_offered (s := taken s rest) hl ho]
  case poolEmpty =>
    have hjoin : (taken s rest).join t cls h = (taken s rest).refuseJoin t .poolEmpty := State.join_poolEmpty hc hch
    rw [hjoin, State.refuseJoin_spec]
    rfl
  case full =>
    have hjoin : (taken s rest).join t cls h = (taken s rest).refuseJoin t .offersFull :=
      State.join_full hc hch (State.freeSlot_of_full (s := taken s rest) hfull)
    rw [hjoin, State.refuseJoin_spec]
    rfl

/-! ### O19: the CLAIM -/

theorem exec_claim {s : State} {rest : List Report} {t : Tag} {a : Byte}
    (hr : Reported s (.request 0x0F (.claim t a)) rest) : exec (.claim t a) s = .next ((taken s rest).claim t a) :=
  takeRequest_reported (fun s => s.claim t a) hr

theorem State.claim_outside {s : State} (t : Tag) {a : Byte} (ha : poolOfByte a = none) :
    s.claim t a = queued s (.refuse 0x0F t .noOffer) := by
  rw [State.claim, ha]
  rfl

/-- A CLAIM of an address that the tag holds LIVE renews the lease (R40). -/
theorem State.claim_live {s : State} {t : Tag} {a : Byte} {p : Pool} {c : ClassId} {d : LeaseTime}
    (ha : poolOfByte a = some p) (hl : s.leaseOf p = .live t c d) : s.claim t a = s.regrantLease p t c := by
  simp only [State.claim, ha, hl, if_true]

/-- A CLAIM of any other pool address is decided by the offer (R40). -/
theorem State.claim_not_live {s : State} {t : Tag} {a : Byte} {p : Pool} (ha : poolOfByte a = some p)
    (hn : ∀ c d, s.leaseOf p ≠ .live t c d) : s.claim t a = s.claimOffer t p := by
  simp only [State.claim, ha]
  split
  · rename_i u c d hl
    exact if_neg fun (hu : u = t) => hn c d (hu ▸ hl)
  · rfl

theorem State.claimOffer_waiting {s : State} {t : Tag} {p : Pool} {k : SlotId} {o : OfferSlot} {n : Nat}
    (hon : s.offerOn t p = some (k, o)) (hph : o.phase = .waiting n) : s.claimOffer t p = s.grantLease p t o.cls := by
  have hw : s.waitingOffer t p = some o := by simp only [State.waitingOffer, hon, hph]
  rw [State.claimOffer, hw]

theorem State.claimOffer_refused {s : State} {t : Tag} {p : Pool}
    (hn : ∀ k o n, s.offerOn t p = some (k, o) → o.phase ≠ .waiting n) :
    s.claimOffer t p = queued s (.refuse 0x0F t .noOffer) := by
  have hw : s.waitingOffer t p = none := by
    unfold State.waitingOffer
    split
    · rename_i k o hon
      split
      · exact absurd ‹_› (hn k o _ hon)
      · rfl
    · rfl
  rw [State.claimOffer, hw]
  rfl

/-- Everything that the grant of an OFFERED address does: LIVE, marked, its slot emptied, and one GRANT (R41). -/
theorem State.grantLease_offered {s : State} {p : Pool} (t : Tag) (c : ClassId) {u : Tag} {c' : ClassId} {k : SlotId}
    (hl : s.leaseOf p = .offered u c' k) :
    s.grantLease p t c = queued (moved s p (.live t c (s.leaseDeadline c)) s.lease.freeList (s.lease.slots.set k none))
      (.grant p t c (s.term c)) := by
  rw [State.grantLease, State.changeLease_eq_moved, hl, moveInFreeList_held _ rfl rfl]
  rfl

/-- Settles O19: an address outside the pool, a LIVE lease of the tag, a WAITING offer to it, and all else. -/
theorem claimOfAnAddress : Obligations.ClaimOfAnAddress := by
  unfold Obligations.ClaimOfAnAddress
  intro s rest t a hr
  rw [exec_claim hr]
  refine ⟨fun ha => congrArg _ (State.claim_outside t ha), fun p ha =>
    ⟨fun c d hl => congrArg _ (State.claim_live (s := taken s rest) ha hl), fun c k o n hl ho ht hp hph => ?waiting,
      fun hlive hwaiting => ?refused⟩⟩
  case waiting =>
    have hclaim : (taken s rest).claim t a = (taken s rest).claimOffer t p :=
      State.claim_not_live ha fun c' d hl' => nomatch hl.symm.trans hl'
    have hon : (taken s rest).offerOn t p = some (k, o) := offerOn_of_offered hl ho ht hp
    rw [hclaim, State.claimOffer_waiting hon hph, State.grantLease_offered (s := taken s rest) t o.cls hl]
    rfl
  case refused =>
    have hclaim : (taken s rest).claim t a = (taken s rest).claimOffer t p := State.claim_not_live ha hlive
    rw [hclaim, State.claimOffer_refused]
    intro k o n hon
    obtain ⟨ht, hp, ho, u, c, hl⟩ := State.offerOn_eq_some hon
    exact hwaiting u c k o n hl ho ht hp

/-! ### O15: the reports of outcomes -/

/-- No offer matches where the address is not OFFERED to the tag (R34). -/
theorem State.offerOn_eq_none {s : State} {t : Tag} {p : Pool} (hs : OfferLaw s)
    (hn : ∀ c k, s.leaseOf p ≠ .offered t c k) : s.offerOn t p = none := by
  refine Option.eq_none_iff_forall_ne_some.2 fun ⟨k, o⟩ hon => ?_
  obtain ⟨-, -, -, u, c, hl⟩ := State.offerOn_eq_some hon
  have hh := holder_of_offerOn hs hon
  rw [hl] at hh
  obtain rfl := Option.some.inj hh
  exact hn c k hl

theorem exec_offerCompletion {s : State} {rest : List Report} {p : Pool} {t : Tag} {c : ClassId} {m : Half}
    (h : Reported s (.outcome (.offer t p c m) true) rest) :
    (∀ k o, (taken s rest).offerOn t p = some (k, o) → exec (.offerCompletion t p) s =
      .next ((taken s rest).putSlot k (some { o with phase := .waiting s.lease.timing.offer.toNat }))) ∧
    ((taken s rest).offerOn t p = none → exec (.offerCompletion t p) s = .next (taken s rest)) := by
  rw [exec, execOfferCompletion, takeNews_reported _ h (by simp [Report.isOfferOutcome])]
  constructor
  · intro k o hon
    rw [hon]
    rfl
  · intro hon
    rw [hon]

theorem Lease.awaitsProbe_iff {l : Lease} {t : Tag} : l.awaitsProbe t = true ↔ ∃ c n, l = .stale t c n .sending := by
  cases l with
  | stale u c n phase => cases phase <;> simp [Lease.awaitsProbe]
  | _ => simp [Lease.awaitsProbe]

theorem exec_probeCompletion {s : State} {rest : List Report} {p : Pool} {t : Tag}
    (h : Reported s (.outcome (.probe p t) true) rest) : exec (.probeCompletion p t) s =
      .next (if (s.leaseOf p).awaitsProbe t then (taken s rest).startProbeTimer p else taken s rest) :=
  takeNews_reported (fun s => if (s.leaseOf p).awaitsProbe t then s.startProbeTimer p else s) h (beq_self_eq_true _)

theorem State.startProbeTimer_stale {s : State} {p : Pool} {t : Tag} {c : ClassId} {n : Fin 4} {f : ProbePhase}
    (hl : s.leaseOf p = .stale t c n f) :
    s.startProbeTimer p = refreshed s p (.stale t c n (.waiting s.lease.timing.probe.toNat)) := by
  rw [State.startProbeTimer, hl]
  rfl

theorem EvictDue.isSending_iff {e : EvictDue} : e.isSending = true ↔ ∃ t r, e = .sending t r := by
  cases e <;> simp [EvictDue.isSending]

theorem exec_evictOutcome {s : State} {rest : List Report} {p : Pool} {t : Tag} {r : EvictReason} {acked : Bool}
    (h : Reported s (.outcome (.evict p t r) acked) rest) : exec (.evictOutcome p) s =
      .next (if (s.entry p).evict.isSending && !(taken s rest).bus.evictOnItsWay p then
        (taken s rest).setEntry p { s.entry p with evict := .absent } else taken s rest) :=
  takeNews_reported (fun s => if (s.entry p).evict.isSending && !s.bus.evictOnItsWay p then
    s.setEntry p { s.entry p with evict := .absent } else s) h (beq_self_eq_true _)

/-- Settles O15: each report is taken, and then its condition on entry, slot or notices on their way decides. -/
theorem outcomeReports : Obligations.OutcomeReports := by
  unfold Obligations.OutcomeReports
  intro s rest p t
  refine ⟨fun c' m hr => ?offer, fun hr => ?probe, fun r acked hr => ?evict, fun m acked hr hm => ?reply⟩
  case offer =>
    obtain ⟨starts, nothing⟩ := exec_offerCompletion hr
    exact ⟨fun c k o hl ho ht ha => starts k o (offerOn_of_offered (s := taken s rest) hl ho ht ha),
      fun hn hs => nothing (State.offerOn_eq_none (s := taken s rest) hs hn)⟩
  case probe =>
    rw [exec_probeCompletion hr]
    refine ⟨fun c n hl => ?_, fun hn => ?_⟩
    · rw [if_pos (Lease.awaitsProbe_iff.2 ⟨c, n, hl⟩), State.startProbeTimer_stale (s := taken s rest) hl]
      rfl
    · refine congrArg _ (if_neg fun h => ?_)
      obtain ⟨c, n, hl⟩ := Lease.awaitsProbe_iff.1 h
      exact hn c n hl
  case evict =>
    have clears : ((s.entry p).evict.isSending && !(taken s rest).bus.evictOnItsWay p) = true ↔
        (∃ u k, (s.entry p).evict = .sending u k) ∧
          ¬ ((∃ n, ∃ u k, s.bus.current = some ⟨.notice (.evict p u k), n⟩) ∨ ∃ u k a, .outcome (.evict p u k) a ∈ rest) := by
      rw [Bool.and_eq_true, Bool.not_eq_true', ← Bool.not_eq_true, EvictDue.isSending_iff, BusEngine.evictOnItsWay_iff]
      rfl
    rw [exec_evictOutcome hr]
    refine ⟨fun hsending hnewer => congrArg _ (if_pos (clears.2 ⟨hsending, hnewer⟩)),
      fun h => congrArg _ (if_neg fun hc => ?_)⟩
    obtain ⟨⟨u, k, hsending⟩, hnewer⟩ := clears.1 hc
    exact h.elim hnewer fun hn => hn u k hsending
  case reply => exact takeNews_reported (fun s => s) hr hm

end Sys2Proof.Machine
end

section
/-! PROOFS. The upkeep of a lease: expiry (O12), an unanswered probe (O14), RELEASE (O22), RENEW granted and refused (O20,
O21), and the snoop report (O23). -/

namespace Sys2Proof.Machine

open Sys2Proof.Safety

/-! ### Withdrawal of an address that is not OFFERED -/

/-- A withdrawal of an entry that names no slot leaves the slots as they are (R6, R71, R73). -/
theorem State.withdraw_noSlot {s : State} {p : Pool} {l : Lease} (t : Tag) (h : s.leaseOf p = l) (hf : l.isFree = false)
    (hs : l.slot = none) : Withdrawn s p t s.lease.slots (s.withdraw p t) := by
  subst h
  have hw := s.withdraw_spec p t hf
  rwa [emptiedSlots, hs] at hw

/-! ### O12: expiry -/

/-- In the second of its deadline a LIVE lease with probes goes to STALE with a PROBE due (R64). -/
theorem State.expire_probed {s : State} {p : Pool} {t : Tag} {c : ClassId} (hl : s.leaseOf p = .live t c s.lease.clock)
    (hn : (s.lease.classes[c]).probes ≠ 0) :
    s.expire p = moved s p (.stale t c (s.lease.classes[c]).probes .due) s.lease.freeList s.lease.slots := by
  simp only [State.expire, hl, if_true, if_neg hn, State.changeLease_eq_moved]
  rfl

/-- In the second of its deadline a LIVE lease without probes is withdrawn (R64). -/
theorem State.expire_unprobed {s : State} {p : Pool} {t : Tag} {c : ClassId} (hl : s.leaseOf p = .live t c s.lease.clock)
    (hn : (s.lease.classes[c]).probes = 0) : s.expire p = s.withdraw p t := by
  simp only [State.expire, hl, if_true, if_pos hn]

/-- Settles O12: the two ends of a lease that is due, and no other lease expires. -/
theorem expiryOfALease : Obligations.ExpiryOfALease := by
  unfold Obligations.ExpiryOfALease
  intro s p hs
  rw [exec_expiry s p hs]
  refine ⟨fun t c hl => ⟨fun hn => congrArg _ (State.expire_probed hl hn), fun hn => ⟨_, rfl, ?_⟩⟩, fun hno => ?_⟩
  · rw [State.expire_unprobed hl hn]
    exact State.withdraw_noSlot t hl rfl rfl
  · refine congrArg _ ((s.expire_spec p).resolve_right ?_)
    rintro ⟨t, c, hl, -⟩
    exact hno t c hl

/-! ### O14: an unanswered probe -/

/-- Everything that an unanswered probe does to a STALE entry: one probe less and the PROBE due again, or, at the last, the
address withdrawn (R67). -/
theorem State.probeUnanswered_stale {s : State} {p : Pool} {t : Tag} {c : ClassId} {n : Fin 4} {f : ProbePhase}
    (hl : s.leaseOf p = .stale t c n f) :
    (1 < n.val → s.probeUnanswered p = refreshed s p (.stale t c (n - 1) .due)) ∧
    (n.val ≤ 1 → Withdrawn s p t s.lease.slots (s.probeUnanswered p)) := by
  have hu : s.probeUnanswered p = if 1 < n.val then s.setLease p (.stale t c (n - 1) .due) else s.withdraw p t := by
    rw [State.probeUnanswered, hl]
  refine ⟨fun hn => hu.trans (if_pos hn), fun hn => ?_⟩
  rw [hu, if_neg (Nat.not_lt.2 hn)]
  exact State.withdraw_noSlot t hl rfl rfl

theorem exec_probeTimeout_unanswered {s : State} (hs : Serving s) {p : Pool} {t : Tag} {c : ClassId} {n : Fin 4}
    (hl : s.leaseOf p = .stale t c n (.waiting 0)) : exec (.probeTimeout p) s = .next (s.probeUnanswered p) := by
  rw [exec_probeTimeout s p hs, State.probeRunOut, hl]
  rfl

theorem exec_probeDrop {s : State} {rest : List Report} {p : Pool} {t : Tag}
    (h : Reported s (.outcome (.probe p t) false) rest) : exec (.probeDrop p t) s =
      .next (if (s.leaseOf p).awaitsProbe t then (taken s rest).probeUnanswered p else taken s rest) :=
  takeNews_reported (fun s => if (s.leaseOf p).awaitsProbe t then s.probeUnanswered p else s) h (beq_self_eq_true _)

/-- Settles O14: timeout and matching drop come to the same unanswered probe, on the state that the drop's report has left. -/
theorem unansweredProbe : Obligations.UnansweredProbe := by
  unfold Obligations.UnansweredProbe
  refine ⟨fun s v p t c n phase command hl h => ?_, fun s rest p t hr hno => ?_⟩
  · have run : exec command s = .next (v.probeUnanswered p) ∧ v.lease = s.lease := by
      rcases h with ⟨hs, rfl, rfl, rfl⟩ | ⟨rest, hr, rfl, rfl, rfl⟩
      · exact ⟨exec_probeTimeout_unanswered hs hl, rfl⟩
      · exact ⟨(exec_probeDrop hr).trans (congrArg _ (if_pos (Lease.awaitsProbe_iff.2 ⟨c, n, hl⟩))), rfl⟩
    obtain ⟨hexec, hlease⟩ := run
    have hlv : v.leaseOf p = .stale t c n phase := by
      rw [← hl, State.leaseOf, State.entry, hlease]
      rfl
    obtain ⟨more, last⟩ := State.probeUnanswered_stale hlv
    rw [hexec, ← hlease]
    exact ⟨fun hn => congrArg _ (more hn), fun hn => ⟨_, rfl, last hn⟩⟩
  · rw [exec_probeDrop hr]
    refine congrArg _ (if_neg fun h => ?_)
    obtain ⟨c, n, hl⟩ := Lease.awaitsProbe_iff.1 h
    exact hno c n hl

/-! ### O22: RELEASE -/

/-- A RELEASE of the holder of a LIVE or STALE lease withdraws the address (R69). -/
theorem exec_release_held {s : State} {rest : List Report} {p : Pool} {t : Tag}
    (hr : Reported s (.request (poolByte p) (.release t)) rest)
    (hl : (∃ c d, s.leaseOf p = .live t c d) ∨ ∃ c n f, s.leaseOf p = .stale t c n f) :
    exec (.release p t) s = .next ((taken s rest).withdraw p t) := by
  rw [exec, execRelease, takeRequest_reported _ hr]
  rcases hl with ⟨c, d, hl⟩ | ⟨c, n, f, hl⟩
  · have hv : (taken s rest).leaseOf p = .live t c d := hl
    simp only [hv, if_true]
  · have hv : (taken s rest).leaseOf p = .stale t c n f := hl
    simp only [hv, if_true]

/-- Every other RELEASE has no effect (R69). -/
theorem exec_release_nothing {s : State} {rest : List Report} {p : Pool} {t : Tag}
    (hr : Reported s (.request (poolByte p) (.release t)) rest)
    (hlive : ∀ c d, s.leaseOf p ≠ .live t c d) (hstale : ∀ c n f, s.leaseOf p ≠ .stale t c n f) :
    exec (.release p t) s = .next (taken s rest) := by
  rw [exec, execRelease, takeRequest_reported _ hr]
  refine congrArg _ ?_
  split
  · rename_i u c d hl
    exact if_neg fun (hu : u = t) => hlive c d (hu ▸ hl)
  · rename_i u c n f hl
    exact if_neg fun (hu : u = t) => hstale c n f (hu ▸ hl)
  · rfl

/-- Settles O22: the two held states lead to the same withdrawal. -/
theorem releaseOfAnAddress : Obligations.ReleaseOfAnAddress := by
  unfold Obligations.ReleaseOfAnAddress
  intro s rest p t hr
  refine ⟨fun c d hl => ⟨_, exec_release_held hr (.inl ⟨c, d, hl⟩), ?_⟩,
    fun c n f hl => ⟨_, exec_release_held hr (.inr ⟨c, n, f, hl⟩), ?_⟩, exec_release_nothing hr⟩
  · exact State.withdraw_noSlot (s := taken s rest) t hl rfl rfl
  · exact State.withdraw_noSlot (s := taken s rest) t hl rfl rfl

/-! ### O20, O21: RENEW -/

theorem exec_renew {s : State} {rest : List Report} {p : Pool} {t : Tag} {cls : Byte}
    (hr : Reported s (.request (poolByte p) (.renew t cls)) rest) :
    exec (.renew p t cls) s = .next ((taken s rest).renew p t cls) :=
  takeRequest_reported (fun s => s.renew p t cls) hr

/-- Everything that a grant at an address that is not OFFERED does: LIVE, marked, off the free list, and one GRANT (R56 to
R59). -/
theorem State.grantLease_noSlot {s : State} {p : Pool} {l : Lease} (t : Tag) (c : ClassId) (hl : s.leaseOf p = l)
    (hs : l.slot = none) :
    s.grantLease p t c = queued (moved s p (.live t c (s.leaseDeadline c))
      (if l.isFree then s.lease.freeList.erase p else s.lease.freeList) s.lease.slots) (.grant p t c (s.term c)) := by
  subst hl
  have hslots : emptiedSlots s.lease.slots (s.leaseOf p) = s.lease.slots := by
    rw [emptiedSlots, hs]
  rw [State.grantLease, State.changeLease_eq_moved, hslots]
  rfl

/-- A tag has no binding exactly if the shadow names it in no slot (R123). -/
theorem State.bindingOf_eq_none_iff {s : State} {t : Tag} : s.store.bindingOf t = none ↔ Unbound s t := by
  refine ⟨fun h k b hk ht => ?_, State.bindingOf_eq_none⟩
  have hslot : s.store.slotOf t = none := by
    refine Option.eq_none_iff_forall_ne_some.2 fun j hj => ?_
    obtain ⟨d, hd, -⟩ := Store.slotOf_eq_some hj
    rw [Store.bindingOf, hj, Option.bind_some, hd] at h
    cases h
  have hnone := List.find?_eq_none.1 hslot k (List.mem_finRange k)
  rw [hk] at hnone
  exact hnone (beq_iff_eq.2 ht)

/-- The binding that names an address, where no other does (R123). -/
theorem Store.bindingAt_of_binding {st : Store} {k : BindSlot} {b : Binding} (h1 : ShadowLaw st)
    (h : st.shadow[k] = some b) : st.bindingAt b.addr = some b := by
  cases hat : st.bindingAt b.addr with
  | none =>
    have hmem : b ∈ st.shadow.toList.reduceOption := by
      rw [List.reduceOption_mem_iff, Vector.mem_toList_iff, ← h]
      exact Vector.getElem_mem k.isLt
    exact absurd (beq_self_eq_true b.addr) (List.find?_eq_none.1 hat b hmem)
  | some d =>
    obtain ⟨hd, j, hj⟩ := Store.bindingAt_eq_some hat
    obtain rfl := h1 j k d b hj h (.inr hd)
    exact hj.symm.trans h

/-- The situations of lines 2 to 6 of the table of 3.4, each with the class of the lease that it grants; `c` is the class
that the RENEW names (R55 to R59). -/
inductive RenewLine (s : State) (p : Pool) (t : Tag) (c : ClassId) : ClassId → Prop
  | live {k : ClassId} {d : LeaseTime} : s.leaseOf p = .live t k d → RenewLine s p t c k
  | stale {k : ClassId} {n : Fin 4} {f : ProbePhase} : s.leaseOf p = .stale t k n f → RenewLine s p t c k
  | revived {d : LeaseTime} : s.leaseOf p = .quarantine t d → HoldsNothing s t → Unbound s t → RenewLine s p t c c
  | adopted {last : Option Tag} : s.leaseOf p = .free last → HoldsNothing s t → Unbound s t → RenewLine s p t c c
  | bound {b : Binding} : s.leaseOf p = .reserved → s.store.bindingAt p = some b → b.tag = t → HoldsNothing s t →
      RenewLine s p t c b.cls

theorem RenewLine.of_taken {s : State} {rest : List Report} {p : Pool} {t : Tag} {c k : ClassId}
    (h : RenewLine (taken s rest) p t c k) : RenewLine s p t c k := by
  cases h with
  | live hl => exact .live hl
  | stale hl => exact .stale hl
  | revived hl hn hu => exact .revived hl hn hu
  | adopted hl hn hu => exact .adopted hl hn hu
  | bound hl hb ht hn => exact .bound hl hb ht hn

/-- What a RENEW grants in a situation of the table: a LIVE lease is renewed, in every other one a lease is granted. -/
theorem State.renew_granted {s : State} {p : Pool} {t : Tag} {cls : Byte} {c k : ClassId} (hc : classOfByte cls = some c)
    (h : RenewLine s p t c k) :
    s.renew p t cls = if (s.leaseOf p).state = .live then s.regrantLease p t k else s.grantLease p t k := by
  cases h with
  | live hl => simp [State.renew, hc, hl, Lease.state]
  | stale hl => simp [State.renew, hc, hl, Lease.state]
  | revived hl hn hu =>
    simp [State.renew, hc, hl, Lease.state, State.holdsEntry_eq_false.2 hn, State.bindingOf_eq_none_iff.2 hu]
  | adopted hl hn hu =>
    simp [State.renew, hc, hl, Lease.state, State.holdsEntry_eq_false.2 hn, State.bindingOf_eq_none_iff.2 hu]
  | bound hl hb ht hn => simp [State.renew, hc, hl, Lease.state, hb, ht, State.holdsEntry_eq_false.2 hn]

/-- In every other situation a RENEW is refused with NO_LEASE (R60). -/
theorem State.renew_refused {s : State} {p : Pool} {t : Tag} {cls : Byte}
    (h : ∀ c k, classOfByte cls = some c → ¬ RenewLine s p t c k) :
    s.renew p t cls = queued s (.refuse (poolByte p) t .noLease) := by
  rw [← State.enqueue_eq_queued]
  unfold State.renew
  split
  · rfl
  · rename_i c hc
    split
    · rename_i u k d hl
      exact if_neg fun (hu : u = t) => h c k hc (.live (hu ▸ hl))
    · rename_i u k n f hl
      exact if_neg fun (hu : u = t) => h c k hc (.stale (hu ▸ hl))
    · rename_i u d hl
      refine if_neg ?_
      rintro ⟨rfl, hn, hu⟩
      exact h c c hc (.revived hl (State.holdsEntry_eq_false.1 hn) (State.bindingOf_eq_none_iff.1 hu))
    · rename_i last hl
      refine if_neg ?_
      rintro ⟨hn, hu⟩
      exact h c c hc (.adopted hl (State.holdsEntry_eq_false.1 hn) (State.bindingOf_eq_none_iff.1 hu))
    · rename_i hl
      split
      · rename_i b hb
        refine if_neg ?_
        rintro ⟨ht, hn⟩
        exact h c b.cls hc (.bound hl hb ht (State.holdsEntry_eq_false.1 hn))
      · rfl
    · rfl
    · rfl

/-- Settles O20: each line of the table is a situation of `RenewLine`, on the state that the request has left. -/
theorem renewGranted : Obligations.RenewGranted := by
  unfold Obligations.RenewGranted
  intro s rest p t cls c hr hc
  rw [exec_renew hr]
  have renewed : ∀ {k l}, s.leaseOf p = l → RenewLine (taken s rest) p t c k →
      (taken s rest).renew p t cls =
        if l.state = .live then (taken s rest).regrantLease p t k else (taken s rest).grantLease p t k := by
    rintro k l rfl h
    exact State.renew_granted hc h
  refine ⟨fun k d hl => ?live, fun k n f hl => ?stale, fun d hl hn hu => ?revived, fun last hl hn hu => ?adopted,
    fun j b hl hlaw hj ha ht hn => ?bound⟩
  case live =>
    rw [renewed hl (.live hl)]
    rfl
  case stale =>
    rw [renewed hl (.stale hl), if_neg nofun, State.grantLease_noSlot t k (s := taken s rest) hl rfl]
    rfl
  case revived =>
    rw [renewed hl (.revived hl hn hu), if_neg nofun, State.grantLease_noSlot t c (s := taken s rest) hl rfl]
    rfl
  case adopted =>
    rw [renewed hl (.adopted hl hn hu), if_neg nofun, State.grantLease_noSlot t c (s := taken s rest) hl rfl]
    rfl
  case bound =>
    have hat : (taken s rest).store.bindingAt p = some b := ha ▸ Store.bindingAt_of_binding hlaw hj
    rw [renewed hl (.bound hl hat ht hn), if_neg nofun, State.grantLease_noSlot t b.cls (s := taken s rest) hl rfl]
    rfl

/-- Settles O21: none of the situations that R60 lists is one of `RenewLine`. -/
theorem renewRefused : Obligations.RenewRefused := by
  unfold Obligations.RenewRefused
  intro s rest p t cls hr h
  rw [exec_renew hr]
  refine congrArg _ (State.renew_refused fun c k hc hline => ?_)
  have hcls : ¬ 4 ≤ cls.toNat := fun h4 => by simp [classOfByte_eq_none h4] at hc
  cases hline.of_taken with
  | live hl => simp [hl, hcls, Lease.holder, eq_comm] at h
  | stale hl => simp [hl, hcls, Lease.holder, eq_comm] at h
  | revived hl hn hu => simp [hl, hcls, hn, hu, eq_comm] at h
  | adopted hl hn hu => simp [hl, hcls, hn, hu] at h
  | bound hl hb ht hn =>
    obtain ⟨ha, j, hj⟩ := Store.bindingAt_eq_some hb
    have hother : ∀ (j : BindSlot) (b : Binding), s.store.shadow[j] = some b → b.addr = p → b.tag ≠ t := by
      simpa [hl, hcls, hn] using h
    exact hother j _ hj ha ht

/-! ### O23: the snoop report -/

theorem exec_snoopReport {s : State} {rest : List Report} {p : Pool} (hr : Reported s (.snoop p) rest) :
    exec (.snoopReport p) s = .next ((taken s rest).snoop p) :=
  takeNews_reported (fun s => s.snoop p) hr (beq_self_eq_true _)

/-- A LIVE lease is renewed without a mark where its class has snoop renewal on (R62, R63). -/
theorem State.snoop_live {s : State} {p : Pool} {t : Tag} {c : ClassId} {d : LeaseTime} (hl : s.leaseOf p = .live t c d) :
    s.snoop p = if (s.lease.classes[c]).snoop then refreshed s p (.live t c (s.leaseDeadline c)) else s := by
  simp only [State.snoop, hl]
  rfl

/-- A STALE lease is renewed with its mark where its class has snoop renewal on (R62, R63). -/
theorem State.snoop_stale {s : State} {p : Pool} {t : Tag} {c : ClassId} {n : Fin 4} {f : ProbePhase}
    (hl : s.leaseOf p = .stale t c n f) : s.snoop p = if (s.lease.classes[c]).snoop
      then moved s p (.live t c (s.leaseDeadline c)) s.lease.freeList s.lease.slots else s := by
  simp only [State.snoop, hl, State.changeLease_eq_moved]
  rfl

/-- On an entry that no one holds a snoop report is a conflict where the window is closed (R83). -/
theorem State.snoop_unheld {s : State} {p : Pool} (hlive : ∀ t c d, s.leaseOf p ≠ .live t c d)
    (hstale : ∀ t c n f, s.leaseOf p ≠ .stale t c n f) :
    s.snoop p = if s.lease.window = none then s.conflictOn p else s := by
  unfold State.snoop
  split
  · exact absurd ‹_› (hlive _ _ _)
  · exact absurd ‹_› (hstale _ _ _ _)
  · rfl

/-- The state once a conflict has been counted: the entry with another lease, one conflict more and its mark, and CONFLICT
(R84). -/
def conflicted (s : State) (p : Pool) (l : Lease) : State :=
  flagged { s with lease := { s.lease with table := s.lease.table.set p { s.entry p with
    lease := l
    conflicts := if (s.entry p).conflicts = 255 then 255 else (s.entry p).conflicts + 1
    mark := true } } } { s.att.latched with conflict := true }

theorem entry_conflicted (s : State) (p : Pool) (l : Lease) : (conflicted s p l).entry p = { s.entry p with
    lease := l
    conflicts := if (s.entry p).conflicts = 255 then 255 else (s.entry p).conflicts + 1
    mark := true } := by
  simp [State.entry, conflicted, flagged]

/-- A second write of an entry replaces the first. -/
theorem setLease_conflicted (s : State) (p : Pool) (l l' : Lease) :
    (conflicted s p l).setLease p l' = conflicted s p l' := by
  rw [State.setLease, entry_conflicted]
  simp [State.setEntry, State.withLease, conflicted, flagged, Vector.set_set]

theorem moved_conflicted (s : State) (p : Pool) (l l' : Lease) (fl : List Pool) :
    moved (conflicted s p l) p l' fl s.lease.slots =
      { conflicted s p l' with lease := { (conflicted s p l').lease with freeList := fl } } := by
  rw [moved, entry_conflicted]
  simp [conflicted, flagged, Vector.set_set]

/-- A conflict on an entry that is not in QUARANTINE leaves its lease (R84). -/
theorem State.conflictOn_other {s : State} {p : Pool} (h : ∀ t d, s.leaseOf p ≠ .quarantine t d) :
    s.conflictOn p = conflicted s p (s.leaseOf p) := by
  unfold State.conflictOn
  dsimp only
  split
  · exact absurd ‹_› (h _ _)
  · rfl

/-- A conflict begins a quarantine anew (R84). -/
theorem State.conflictOn_quarantine {s : State} {p : Pool} {t : Tag} {d : LeaseTime} (h : s.leaseOf p = .quarantine t d)
    (hq : s.lease.timing.quarantine ≠ 0) :
    s.conflictOn p = conflicted s p (.quarantine t (s.nowPlus s.lease.timing.quarantine.toNat)) := by
  rw [← setLease_conflicted s p (s.leaseOf p), State.conflictOn]
  replace h : (s.entry p).lease = .quarantine t d := h
  simp only [h, if_neg hq]
  rw [← h]
  rfl

/-- With a quarantine period of 0 a conflict ends the quarantine in the same event (R73, R84). -/
theorem State.conflictOn_noPeriod {s : State} {p : Pool} {t : Tag} {d : LeaseTime} (h : s.leaseOf p = .quarantine t d)
    (hq : s.lease.timing.quarantine = 0) :
    s.conflictOn p = (conflicted s p (s.leaseOf p)).toFree p (some t) .tail := by
  rw [State.conflictOn]
  replace h : (s.entry p).lease = .quarantine t d := h
  simp only [h, if_pos hq]
  rw [← h]
  rfl

/-- The end of the quarantine of an address that is not pinned, in the event of a conflict (R72, R84). -/
theorem toFree_conflicted {s : State} {p : Pool} {t : Tag} {d : LeaseTime} (h : s.leaseOf p = .quarantine t d)
    (hp : s.store.pinned p = false) : (conflicted s p (s.leaseOf p)).toFree p (some t) .tail =
      { conflicted s p (.free (some t)) with lease := { (conflicted s p (.free (some t))).lease with
        freeList := s.lease.freeList ++ [p] } } := by
  have hl : (conflicted s p (s.leaseOf p)).leaseOf p = .quarantine t d := by
    rw [State.leaseOf, entry_conflicted]
    exact h
  rw [State.toFree_spec _ _ _ _ (by rw [hl]; rfl), hl, ← moved_conflicted s p (s.leaseOf p)]
  exact if_neg (by simpa [conflicted, flagged] using hp)

/-- Settles O23: by the lease of the entry, on the state that the report has left. -/
theorem snoopReportTaken : Obligations.SnoopReportTaken := by
  unfold Obligations.SnoopReportTaken
  intro s rest p hr
  dsimp only
  rw [exec_snoopReport hr]
  refine ⟨fun t c d hl => congrArg _ (State.snoop_live (s := taken s rest) hl),
    fun t c n f hl => congrArg _ (State.snoop_stale (s := taken s rest) hl), fun hlive hstale => ?_⟩
  rw [State.snoop_unheld (s := taken s rest) hlive hstale]
  refine ⟨fun hw => congrArg _ (if_neg hw), fun hw => ?_⟩
  rw [if_pos (show (taken s rest).lease.window = none from hw)]
  refine ⟨fun hn => congrArg _ (State.conflictOn_other (s := taken s rest) hn), fun t d hl hq =>
    congrArg _ (State.conflictOn_quarantine (s := taken s rest) hl hq), fun t d hl hq hp => ?_⟩
  rw [State.conflictOn_noPeriod (s := taken s rest) hl hq, toFree_conflicted (s := taken s rest) hl hp]
  rfl

end Sys2Proof.Machine
end

section
/-! PROOFS. Class Set, Timing Set and Timing Get (O44). -/

namespace Sys2Proof.Machine

open Sys2Proof.Safety

/-! ### Two bytes and the number that they spell (R198) -/

theorem halfOfBytes_eq (hi lo : Byte) : halfOfBytes hi lo = BitVec.ofNat 16 (hi.toNat * 256 + lo.toNat) := by
  simp [halfOfBytes, beNat]

theorem toNat_halfOfBytes (hi lo : Byte) : (halfOfBytes hi lo).toNat = hi.toNat * 256 + lo.toNat := by
  have hhi := hi.isLt
  have hlo := lo.isLt
  rw [halfOfBytes_eq, BitVec.toNat_ofNat]
  omega

theorem halfBytes_halfOfBytes (hi lo : Byte) : halfBytes (halfOfBytes hi lo) = [hi, lo] := by
  have hhi := hi.isLt
  have hlo := lo.isLt
  simp only [halfBytes, beBytes, toNat_halfOfBytes, List.cons.injEq, and_true]
  constructor
  · apply BitVec.eq_of_toNat_eq
    rw [BitVec.toNat_ofNat]
    omega
  · apply BitVec.eq_of_toNat_eq
    rw [BitVec.toNat_ofNat]
    omega

/-- Every field of two bytes is spelt by two bytes (R198). -/
theorem exists_halfBytes (h : Half) : ∃ hi lo, halfBytes h = [hi, lo] ∧ halfOfBytes hi lo = h := by
  refine ⟨_, _, rfl, ?_⟩
  have hh := h.isLt
  apply BitVec.eq_of_toNat_eq
  simp only [toNat_halfOfBytes, BitVec.toNat_ofNat]
  omega

theorem byteOf_toNat (b : Byte) : byteOf b.toNat = b := by
  simp [byteOf]

/-! ### Class Set (R52, R177) -/

theorem exec_classSet {s : State} {ps : List Byte} (h : Asked s .classSet ps) {x : Answer} (hx : ownClassSet ps s = x) :
    exec (.classSet ps) s = .next (replied x.state x.status .classSet x.data) := by
  subst hx
  exact serve_asked _ h

/-- A Class Set with every value in range writes the class and returns its five bytes (R177). -/
theorem ownClassSet_good {c hi lo n o : Byte} {k : ClassId} {probes : Fin 4} (s : State) (hc : c.toNat = k.val)
    (hterm : 10 ≤ hi.toNat * 256 + lo.toNat) (hn : n.toNat = probes.val) (ho : o = 0 ∨ o = 1) :
    ownClassSet [c, hi, lo, n, o] s = .ok (s.withLease { s.lease with
      classes := s.lease.classes.set k ⟨halfOfBytes hi lo, probes, o == 1⟩ }) [c, hi, lo, n, o] := by
  have hcls : classOfByte c = some k := (dif_pos (hc ▸ k.isLt)).trans (congrArg some (Fin.ext hc))
  have hprobes : probesOfByte n = some probes := (dif_pos (hn ▸ probes.isLt)).trans (congrArg some (Fin.ext hn))
  have hsnoop : snoopOfByte o = some (o == 1) ∧ (if o = 1 then (1 : Byte) else 0) = o := by
    rcases ho with rfl | rfl <;> exact ⟨rfl, rfl⟩
  obtain ⟨hsome, hback⟩ := hsnoop
  simp only [ownClassSet, hcls, hprobes, hsome, toNat_halfOfBytes, if_pos hterm]
  refine congrArg (Answer.ok _) ?_
  simpa [State.classRecord, halfBytes_halfOfBytes, ← hc, ← hn, byteOf_toNat] using hback

/-- A Class Set with a value out of range writes nothing (R177). -/
theorem ownClassSet_bad {c hi lo n o : Byte} (s : State)
    (h : 4 ≤ c.toNat ∨ hi.toNat * 256 + lo.toNat < 10 ∨ 4 ≤ n.toNat ∨ 2 ≤ o.toNat) :
    ownClassSet [c, hi, lo, n, o] s = .badParam s := by
  have hrange : ∀ {k probes snoop}, classOfByte c = some k → probesOfByte n = some probes → snoopOfByte o = some snoop →
      ¬ 10 ≤ (halfOfBytes hi lo).toNat := by
    intro k probes snoop hc hn ho
    rw [toNat_halfOfBytes]
    rcases h with h | h | h | h
    · rw [classOfByte_eq_none h] at hc
      cases hc
    · exact Nat.not_le.2 h
    · rw [probesOfByte, dif_neg (Nat.not_lt.2 h)] at hn
      cases hn
    · unfold snoopOfByte at ho
      split at ho
      · subst o
        exact absurd h (by decide)
      · split at ho
        · subst o
          exact absurd h (by decide)
        · cases ho
  simp only [ownClassSet]
  split
  · exact if_neg (hrange ‹_› ‹_› ‹_›)
  · rfl

/-! ### Timing Set and Timing Get (R88, R179, R180) -/

/-- The eight bytes of Timing Set (R179). -/
def timingParams (t : Timing) : List Byte :=
  halfBytes t.offer ++ halfBytes t.probe ++ halfBytes t.quarantine ++ halfBytes t.window

/-- The nine bytes of Timing Get are those of Timing Set and the window (R180). -/
theorem State.timingRecord_eq (s : State) :
    s.timingRecord = timingParams s.lease.timing ++ [if s.lease.window.isSome then 1 else 0] := rfl

/-- The ranges of the timing set, one by one (R179). -/
theorem Timing.inRange_iff {t : Timing} : t.inRange = true ↔
    50 ≤ t.offer.toNat ∧ t.offer.toNat ≤ 2000 ∧ t.offer.toNat % 10 = 0 ∧
      100 ≤ t.probe.toNat ∧ t.probe.toNat ≤ 10000 ∧ t.probe.toNat % 100 = 0 ∧
        t.quarantine.toNat ≤ 3600 ∧ t.window.toNat ≤ 3600 := by
  simp [Timing.inRange, and_assoc]

/-- The state with the timing set and the adoption window written. -/
def State.timed (s : State) (t : Timing) (w : Option LeaseTime) : State :=
  s.withLease { s.lease with timing := t, window := w }

/-- Timing Set by its owner reads back the four items (R179). -/
theorem ownTimingSet_params (t : Timing) (s : State) : ownTimingSet (timingParams t) s =
    if t.inRange then
      .ok (s.timed t (s.lease.windowAfter t.window)) (s.timed t (s.lease.windowAfter t.window)).timingRecord
    else .badParam s := by
  obtain ⟨o, p, q, w⟩ := t
  obtain ⟨o1, o0, ho, rfl⟩ := exists_halfBytes o
  obtain ⟨p1, p0, hp, rfl⟩ := exists_halfBytes p
  obtain ⟨q1, q0, hq, rfl⟩ := exists_halfBytes q
  obtain ⟨w1, w0, hw, rfl⟩ := exists_halfBytes w
  simp only [timingParams, ho, hp, hq, hw]
  rfl

/-- A Timing Set with every item in range writes them and acts on the window (R88, R179). -/
theorem exec_timingSet_good {s : State} {t : Timing} {w : Option LeaseTime} (h : Asked s .timingSet (timingParams t))
    (hgood : t.inRange = true) (hw : s.lease.windowAfter t.window = w) : exec (.timingSet (timingParams t)) s =
      .next (replied (s.timed t w) .ok .timingSet (timingParams t ++ [if w.isSome then 1 else 0])) := by
  subst hw
  have hserve := serve_asked (ownTimingSet (timingParams t)) h
  rw [ownTimingSet_params, if_pos hgood] at hserve
  exact hserve

/-- A Timing Set with an item out of range writes nothing (R179). -/
theorem exec_timingSet_bad {s : State} {t : Timing} (h : Asked s .timingSet (timingParams t)) (hbad : ¬ t.inRange = true) :
    exec (.timingSet (timingParams t)) s = .next (replied s .badParam .timingSet []) := by
  have hserve := serve_asked (ownTimingSet (timingParams t)) h
  rw [ownTimingSet_params, if_neg hbad] at hserve
  exact hserve

theorem exec_timingGet {s : State} (h : Asked s .timingGet []) :
    exec (.timingGet []) s = .next (replied s .ok .timingGet s.timingRecord) :=
  serve_asked _ h

/-- A closed window stays closed (R88). -/
theorem LeaseEngine.windowAfter_closed {l : LeaseEngine} (v : Half) (h : l.window = none) : l.windowAfter v = none := by
  rw [LeaseEngine.windowAfter, h]

/-- An open window closes at once, or its closing point moves (R88). -/
theorem LeaseEngine.windowAfter_open {l : LeaseEngine} (v : Half) (h : l.window ≠ none) :
    l.windowAfter v = if v.toNat ≤ l.clock.toNat then none else some (BitVec.ofNat 32 v.toNat) := by
  obtain ⟨w, hw⟩ := Option.ne_none_iff_exists'.1 h
  rw [LeaseEngine.windowAfter, hw]

/-- Settles O44: the owners' answers, in range and out of it. -/
theorem classSetAndTimingSetAndTimingGet : Obligations.ClassSetAndTimingSetAndTimingGet := by
  unfold Obligations.ClassSetAndTimingSetAndTimingGet
  refine ⟨fun s c hi lo n o h => ⟨fun k probes hc hterm hn ho => ?_, fun hbad =>
    exec_classSet h (ownClassSet_bad s hbad)⟩, fun s offer probe quarantine window => ⟨fun h => ?_, fun h ht => ?_⟩⟩
  · rw [exec_classSet h (ownClassSet_good s hc hterm hn ho), halfOfBytes_eq]
    rfl
  · have written := fun w => exec_timingSet_good (t := ⟨offer, probe, quarantine, window⟩) (w := w) h
    refine ⟨fun hgood hw => ?closed, fun hgood hw hv => ?closes, fun hgood hw hv => ?moves, fun hbad => ?bad⟩
    case closed => exact written none (Timing.inRange_iff.2 hgood) (LeaseEngine.windowAfter_closed _ hw)
    case closes =>
      exact written none (Timing.inRange_iff.2 hgood) ((LeaseEngine.windowAfter_open _ hw).trans (if_pos hv))
    case moves =>
      exact written (some _) (Timing.inRange_iff.2 hgood)
        ((LeaseEngine.windowAfter_open _ hw).trans (if_neg (Nat.not_le.2 hv)))
    case bad =>
      exact exec_timingSet_bad (t := ⟨offer, probe, quarantine, window⟩) h fun hgood => hbad (Timing.inRange_iff.1 hgood)
  · rw [exec_timingGet h, State.timingRecord_eq, ht]
    cases s.lease.window <;> rfl

end Sys2Proof.Machine
end

section
/-! SUPPORT. What lies outside the lease table, the free list, the offer slots, and the queue, current message and reports of
the bus engine; and that the shared operations leave it alone (O60). -/

namespace Sys2Proof.Machine

open Sys2Proof.Safety

/-- Everything that O60 speaks of: the blocks with a record of their own, the transceiver with its watch, the bit rate, and
the clock, window and settings of the lease engine. -/
structure Outside where
  store : Store
  port : HostPort
  att : Attention
  transceiver : Engine × Watch
  rate : Bool
  clock : LeaseTime
  window : Option LeaseTime
  classes : Vector ClassConfig 4
  timing : Timing

/-- The state without the lease table, the free list, the offer slots, and the queue, current message and reports. -/
def State.outside (s : State) : Outside where
  store := s.store
  port := s.port
  att := s.att
  transceiver := (s.bus.engine, s.bus.watch)
  rate := s.bus.fast
  clock := s.lease.clock
  window := s.lease.window
  classes := s.lease.classes
  timing := s.lease.timing

/-! ### Entries, slots, the queue and the reports -/

@[simp] theorem State.outside_setLease (s : State) (p : Pool) (l : Lease) : (s.setLease p l).outside = s.outside := rfl
@[simp] theorem State.outside_setEvict (s : State) (p : Pool) (t : Tag) (r : EvictReason) :
    (s.setEvict p t r).outside = s.outside := rfl
@[simp] theorem State.outside_changeLease (s : State) (p : Pool) (l : Lease) (x : Place) :
    (s.changeLease p l x).outside = s.outside := rfl
@[simp] theorem State.outside_enqueue (s : State) (m : Message) : (s.enqueue m).outside = s.outside := rfl
@[simp] theorem State.outside_clearMarks (s : State) (chosen : List Pool) : (s.clearMarks chosen).outside = s.outside := by
  simp [State.clearMarks, State.outside]

@[simp] theorem State.outside_toFree (s : State) (p : Pool) (last : Option Tag) (x : Place) :
    (s.toFree p last x).outside = s.outside := by
  unfold State.toFree
  split <;> rfl

@[simp] theorem State.outside_withdraw (s : State) (p : Pool) (t : Tag) : (s.withdraw p t).outside = s.outside := by
  unfold State.withdraw
  split
  · rfl
  · split <;> rfl

@[simp] theorem State.outside_ceasePinned (s : State) (p : Pool) : (s.ceasePinned p).outside = s.outside := by
  unfold State.ceasePinned
  split
  · rfl
  · split <;> rfl

@[simp] theorem State.outside_refuseRevoked (s : State) (t : Tag) : (s.refuseRevoked t).outside = s.outside := by
  unfold State.refuseRevoked
  split <;> rfl

@[simp] theorem State.outside_lapse (s : State) (p : Pool) (o : OfferSlot) : (s.lapse p o).outside = s.outside := by
  unfold State.lapse
  split <;> simp

@[simp] theorem State.outside_probeUnanswered (s : State) (p : Pool) : (s.probeUnanswered p).outside = s.outside := by
  unfold State.probeUnanswered
  split
  · split <;> simp
  · rfl

/-! ### Timers, RENEW, RELEASE and CLAIM -/

@[simp] theorem State.outside_expire (s : State) (p : Pool) : (s.expire p).outside = s.outside := by
  obtain h | ⟨t, c, -, ⟨-, h⟩ | ⟨-, h⟩⟩ := s.expire_spec p <;> rw [h]
  · exact s.outside_withdraw p t
  · rfl

@[simp] theorem State.outside_endQuarantine (s : State) (p : Pool) : (s.endQuarantine p).outside = s.outside := by
  obtain h | ⟨t, -, h⟩ := s.endQuarantine_spec p <;> rw [h]
  exact s.outside_toFree p _ _

@[simp] theorem State.outside_lapseRunOut (s : State) (p : Pool) : (s.lapseRunOut p).outside = s.outside := by
  unfold State.lapseRunOut
  split
  · exact s.outside_lapse p _
  · rfl

@[simp] theorem State.outside_probeRunOut (s : State) (p : Pool) : (s.probeRunOut p).outside = s.outside := by
  unfold State.probeRunOut
  split
  · exact s.outside_probeUnanswered p
  · rfl

@[simp] theorem State.outside_startProbeTimer (s : State) (p : Pool) : (s.startProbeTimer p).outside = s.outside := by
  unfold State.startProbeTimer
  split <;> rfl

@[simp] theorem State.outside_grantLease (s : State) (p : Pool) (t : Tag) (c : ClassId) :
    (s.grantLease p t c).outside = s.outside := rfl
@[simp] theorem State.outside_regrantLease (s : State) (p : Pool) (t : Tag) (c : ClassId) :
    (s.regrantLease p t c).outside = s.outside := rfl

@[simp] theorem State.outside_renew (s : State) (p : Pool) (t : Tag) (cls : Byte) : (s.renew p t cls).outside = s.outside := by
  by_cases h : ∃ c k, classOfByte cls = some c ∧ RenewLine s p t c k
  · obtain ⟨c, k, hc, hline⟩ := h
    rw [State.renew_granted hc hline]
    split <;> rfl
  · rw [State.renew_refused fun c k hc hline => h ⟨c, k, hc, hline⟩]
    rfl

@[simp] theorem State.outside_claimOffer (s : State) (t : Tag) (p : Pool) : (s.claimOffer t p).outside = s.outside := by
  unfold State.claimOffer
  split <;> rfl

@[simp] theorem State.outside_claim (s : State) (t : Tag) (a : Byte) : (s.claim t a).outside = s.outside := by
  unfold State.claim
  split
  · rfl
  · split
    · split <;> simp
    · simp

/-! ### Joining and the current message -/

@[simp] theorem State.outside_repeatOffer (s : State) (p : Pool) : (s.repeatOffer p).outside = s.outside := by
  unfold State.repeatOffer
  split
  · split <;> rfl
  · rfl

@[simp] theorem State.outside_collectNotice (s : State) (p : Pool) : (s.collectNotice p).outside = s.outside := by
  unfold State.collectNotice
  dsimp only
  split
  · rfl
  · split <;> rfl

@[simp] theorem State.outside_chooseCurrent (s : State) : s.chooseCurrent.outside = s.outside := by
  unfold State.chooseCurrent
  split
  · rfl
  · split
    · rfl
    · split
      · exact s.outside_collectNotice _
      · rfl

@[simp] theorem State.outside_outcome (s : State) (acked : Bool) : (s.outcome acked).outside = s.outside := by
  unfold State.outcome
  split <;> rfl

@[simp] theorem State.outside_countAttempt (s : State) : s.countAttempt.outside = s.outside := by
  unfold State.countAttempt
  split
  · rfl
  · split
    · rfl
    · exact s.outside_outcome _

/-! ### Revoke, Withhold and the early effects of a Bind -/

@[simp] theorem State.outside_revoke (s : State) (p : Pool) : (s.revoke p).state.outside = s.outside := by
  unfold State.revoke
  split <;> simp [Answer.ok, Answer.refused]

@[simp] theorem State.outside_withhold (s : State) (p : Pool) : (s.withhold p).state.outside = s.outside := by
  unfold State.withhold
  split
  · rfl
  · split <;> rfl

@[simp] theorem State.outside_unwithhold (s : State) (p : Pool) : (s.unwithhold p).state.outside = s.outside := by
  unfold State.unwithhold
  split
  · exact s.outside_toFree p _ _
  · rfl

@[simp] theorem State.outside_markIfNewlyPinned (s : State) (a : Pool) (b : Bool) :
    (s.markIfNewlyPinned a b).outside = s.outside := by
  unfold State.markIfNewlyPinned
  split <;> rfl

@[simp] theorem State.outside_earlyEffect (s : State) (t : Tag) (a : Pool) (b : Bool) :
    (s.earlyEffect t a b).outside = s.outside := by
  unfold State.earlyEffect
  split
  · rfl
  · rfl
  · simp
  · simp
  · split <;> simp
  · split <;> simp
  · split <;> simp

@[simp] theorem State.outside_moveAway (s : State) (t : Tag) (a : Pool) : (s.moveAway t a).outside = s.outside := by
  unfold State.moveAway
  split
  · rfl
  · split <;> simp

end Sys2Proof.Machine
end

section
/-! PROOFS. Which command may change which block and setting (O60). -/

namespace Sys2Proof.Machine

open Sys2Proof.Safety

/-! ### What a command may change -/

/-- The blocks and settings of `Outside`, and the flash of the store. -/
inductive Aspect where
  | store
  | flash
  | port
  | att
  | transceiver
  | rate
  | clock
  | window
  | classes
  | timing

/-- The aspect reads the same in both. -/
def Aspect.Same (a b : Outside) : Aspect → Prop
  | .store => b.store = a.store
  | .flash => b.store.flash = a.store.flash
  | .port => b.port = a.port
  | .att => b.att = a.att
  | .transceiver => b.transceiver = a.transceiver
  | .rate => b.rate = a.rate
  | .clock => b.clock = a.clock
  | .window => b.window = a.window
  | .classes => b.classes = a.classes
  | .timing => b.timing = a.timing

/-- The commands of the store that leave the flash: Bind and Unbind, the begin and the end of the scan. -/
def keepsFlash : Instr → Bool
  | .bind _ => true
  | .unbind _ => true
  | .scanEnd => true
  | .hardResetEnd => true
  | _ => false

/-- Besides the resets, what writes a setting: the tick the clock, and the window where it is due; the host the class table,
and the timing set with the window (R49, R51, R53, R87, R88). The bit rate is sampled in a hard reset alone (R97). -/
def writesSetting : Instr → Aspect → Bool
  | .leaseClockTick, .clock => true
  | .leaseClockTick, .window => true
  | .adoptionWindowClose, .window => true
  | .timingSet _, .window => true
  | .timingSet _, .timing => true
  | .classSet _, .classes => true
  | .hardReset _ _, .rate => true
  | _, _ => false

/-- Whether a command may change an aspect. -/
def writes (c : Instr) : Aspect → Bool
  | .store => touchesStore c
  | .flash => touchesStore c && !keepsFlash c
  | .port => touchesPort c
  | .att => touchesAttention c
  | .transceiver => movesEngine c
  | .rate => writesSetting c .rate
  | .clock => isReset c || writesSetting c .clock
  | .window => isReset c || writesSetting c .window
  | .classes => isReset c || writesSetting c .classes
  | .timing => isReset c || writesSetting c .timing

/-- Nothing has changed but what the command may change. -/
def Confined (c : Instr) (s t : State) : Prop := ∀ x, writes c x = false → x.Same s.outside t.outside

theorem Aspect.Same.trans {x : Aspect} {a b c : Outside} (h : x.Same a b) (h' : x.Same b c) : x.Same a c := by
  cases x <;> exact Eq.trans h' h

theorem Confined.trans {c : Instr} {s t u : State} (h : Confined c s t) (h' : Confined c t u) : Confined c s u :=
  fun x hx => (h x hx).trans (h' x hx)

/-- Where nothing of `Outside` has changed, nothing has that any command may not change. -/
theorem confined_of_outside {c : Instr} {s t : State} (h : t.outside = s.outside) : Confined c s t := by
  intro x _
  rw [h]
  cases x <;> rfl

theorem Confined.refl (c : Instr) (s : State) : Confined c s s := confined_of_outside rfl

theorem confined_withAtt {c : Instr} (hc : writes c .att = true) (s : State) (a : Attention) : Confined c s (s.withAtt a) := by
  intro x hx
  cases x with
  | att => simp [hc] at hx
  | _ => rfl

theorem confined_withPort {c : Instr} (hc : writes c .port = true) (s : State) (p : HostPort) :
    Confined c s (s.withPort p) := by
  intro x hx
  cases x with
  | port => simp [hc] at hx
  | _ => rfl

/-- Another transceiver state or watch, at the same bit rate. -/
theorem confined_withBus {c : Instr} (hc : writes c .transceiver = true) {s : State} {b : BusEngine}
    (hb : b.fast = s.bus.fast) : Confined c s (s.withBus b) := by
  intro x hx
  cases x with
  | transceiver => simp [hc] at hx
  | rate => exact hb
  | _ => rfl

theorem confined_withStore {c : Instr} (hc : writes c .store = true) {s : State} {st : Store}
    (hf : writes c .flash = true ∨ st.flash = s.store.flash) : Confined c s (s.withStore st) := by
  intro x hx
  cases x with
  | store => simp [hc] at hx
  | flash => exact hf.resolve_left (by simp [hx])
  | _ => rfl

/-- Other settings of the lease engine, each of them one that the command may write. -/
theorem confined_withLease {c : Instr} {s : State} {l : LeaseEngine}
    (hclock : writes c .clock = true ∨ l.clock = s.lease.clock)
    (hwindow : writes c .window = true ∨ l.window = s.lease.window)
    (hclasses : writes c .classes = true ∨ l.classes = s.lease.classes)
    (htiming : writes c .timing = true ∨ l.timing = s.lease.timing) : Confined c s (s.withLease l) := by
  intro x hx
  cases x with
  | clock => exact hclock.resolve_left (by simp [hx])
  | window => exact hwindow.resolve_left (by simp [hx])
  | classes => exact hclasses.resolve_left (by simp [hx])
  | timing => exact htiming.resolve_left (by simp [hx])
  | _ => rfl

theorem confined_raise {c : Instr} (hc : writes c .att = true) (s : State) (k : Cause) : Confined c s (s.raise k) :=
  confined_withAtt hc s _

theorem confined_setEngine {c : Instr} (hc : writes c .transceiver = true) (s : State) (e : Engine) :
    Confined c s (s.setEngine e) :=
  confined_withBus hc rfl

/-! ### When an event is taken -/

/-- Every state that a result answers is confined. -/
def Confines (c : Instr) (s : State) (r : Result) : Prop := ∀ t, r = .next t → Confined c s t

theorem confines_next {c : Instr} {s t : State} (h : Confined c s t) : Confines c s (.next t) := by
  rintro _ ⟨⟩
  exact h

theorem confines_whenReady {c : Instr} {f : State → State} (hf : ∀ u, Confined c u (f u)) (s : State) :
    Confines c s (whenReady f s) := by
  intro t ht
  rcases whenReady_next ht with ⟨-, rfl⟩ | ⟨-, rfl⟩
  · exact .refl c _
  · exact hf s

theorem confines_whenRunning {c : Instr} {f : State → State} (hf : ∀ u, Confined c u (f u)) (s : State) :
    Confines c s (whenRunning f s) := by
  intro t ht
  rcases whenRunning_next ht with ⟨-, rfl⟩ | ⟨-, rfl⟩
  · exact .refl c _
  · exact hf s

theorem confines_takeRequest {c : Instr} {r : Report} {f : State → State} (hf : ∀ u, Confined c u (f u)) (s : State) :
    Confines c s (takeRequest r f s) := by
  refine confines_whenReady (fun u => ?_) s
  split
  · rename_i v hv
    obtain ⟨rest, rfl⟩ := takeReport_eq_some hv
    exact (confined_of_outside rfl).trans (hf _)
  · exact .refl c u

theorem confines_takeNews {c : Instr} {w : Report → Bool} {f : State → State} (hf : ∀ u, Confined c u (f u)) (s : State) :
    Confines c s (takeNews w f s) := by
  intro t ht
  rcases takeNews_next ht with rfl | ⟨-, rest, ⟨-, rfl⟩ | ⟨-, rfl⟩⟩
  · exact .refl c _
  · exact confined_of_outside rfl
  · exact (confined_of_outside rfl).trans (hf (taken s rest))

theorem confines_serve {c : Instr} {code : RequestCode} {ps : List Byte} {own : State → Answer}
    (hc : writes c .port = true) (hf : ∀ u, Confined c u (own u).state) (s : State) : Confines c s (serve code ps own s) := by
  intro t ht
  rcases serve_next ht with rfl | ⟨-, rfl⟩
  · exact .refl c _
  · exact (hf s).trans (confined_withPort hc _ _)

theorem confined_withoutParams {c : Instr} {ps : List Byte} {own : State → Answer} (hf : ∀ u, Confined c u (own u).state)
    (s : State) : Confined c s (withoutParams ps own s).state := by
  unfold withoutParams
  split
  · exact hf s
  · exact .refl c s

/-! ### The clock, the snoop report and the JOIN -/

theorem confined_closeWindow {c : Instr} (hc : writes c .window = true) (s : State) : Confined c s s.closeWindow := by
  unfold State.closeWindow
  split
  · exact confined_withLease (.inr rfl) (.inl hc) (.inr rfl) (.inr rfl)
  · exact .refl c s

theorem confined_endSecond (s : State) : Confined .leaseClockTick s s.endSecond :=
  State.endSecond_induction (P := Confined .leaseClockTick s) (fun u p h => h.trans (confined_of_outside (u.outside_expire p)))
    (fun u p h => h.trans (confined_of_outside (u.outside_endQuarantine p)))
    (fun u h => h.trans (confined_closeWindow rfl u)) (.refl _ s)

theorem confined_setClock (s : State) (n : LeaseTime) :
    Confined .leaseClockTick s (s.withLease { s.lease with clock := n }) :=
  confined_withLease (.inl rfl) (.inr rfl) (.inr rfl) (.inr rfl)

theorem confined_tick (s : State) : Confined .leaseClockTick s
    (s.endSecond.withLease { s.endSecond.lease with clock := s.endSecond.nowPlus 1 }) :=
  (confined_endSecond s).trans (confined_setClock _ _)

/-- A conflict sets a cause flag besides the entry (R84). -/
theorem confined_conflictOn (s : State) (p : Pool) : Confined (.snoopReport p) s (s.conflictOn p) := by
  have counted : ∀ e, Confined (.snoopReport p) s ((s.setEntry p e).raise .conflict) := fun e =>
    (confined_of_outside rfl).trans (confined_raise rfl _ _)
  unfold State.conflictOn
  dsimp only
  split
  · split
    · exact (counted _).trans (confined_of_outside (State.outside_toFree _ _ _ _))
    · exact (counted _).trans (confined_of_outside rfl)
  · exact counted _

theorem confined_snoop (s : State) (p : Pool) : Confined (.snoopReport p) s (s.snoop p) := by
  unfold State.snoop
  split
  · split <;> exact confined_of_outside rfl
  · split <;> exact confined_of_outside rfl
  · split
    · exact confined_conflictOn s p
    · exact .refl _ s

/-- A JOIN refused for want of an address or a slot sets a cause flag (R33). -/
theorem confined_join (s : State) (t : Tag) (cls h : Byte) : Confined (.join t cls h) s (s.join t cls h) := by
  have refused : ∀ r, Confined (.join t cls h) s (s.refuseJoin t r) := fun r =>
    (confined_of_outside rfl).trans (confined_raise rfl _ _)
  unfold State.join
  split
  · exact confined_of_outside rfl
  · split
    · exact confined_of_outside (s.outside_repeatOffer _)
    · exact refused _
    · split
      · exact confined_of_outside rfl
      · exact refused _

/-! ### The bus engine -/

theorem confined_brokenOff {c : Instr} (hc : writes c .transceiver = true) (s : State) (e : Engine) :
    Confined c s (s.brokenOff e) :=
  (confined_of_outside s.outside_countAttempt).trans (confined_setEngine hc _ e)

theorem confined_enterFault (s : State) : Confined .stuckBus s s.enterFault :=
  (confined_withBus (b := { s.bus with engine := .fault, watch := .stopped }) rfl rfl).trans (confined_raise rfl _ .busFault)

theorem confined_hear {c : Instr} (hc : writes c .transceiver = true) (ha : writes c .att = true) (s : State)
    (dest src kind : Byte) (payload : List Byte) : Confined c s (s.hear dest src kind payload) := by
  have hu : Confined c s (if src = Config.authority then s.raise .rival else s) := by
    split
    · exact confined_raise ha s _
    · exact .refl c s
  have heard : ∀ (u : State) r e, Confined c u ((u.report r).setEngine e) := fun u r e =>
    (confined_of_outside rfl).trans (confined_setEngine hc _ e)
  unfold State.hear
  refine hu.trans ?_
  generalize (if src = Config.authority then s.raise .rival else s) = u
  dsimp only
  split
  · split
    · exact heard u _ _
    · exact confined_setEngine hc u _
  · split
    · exact heard u _ _
    · exact confined_setEngine hc u _

theorem confined_receive {c : Instr} (hc : writes c .transceiver = true) (ha : writes c .att = true) (s : State)
    (bytes : List Byte) : Confined c s (s.receive bytes) := by
  unfold State.receive
  split
  · split
    · exact confined_setEngine hc s _
    · split
      · split
        · exact confined_hear hc ha s _ _ _ _
        · exact confined_setEngine hc s _
      · exact .refl c s
  · exact .refl c s

theorem confines_ownStart (s : State) : Confines .ownStart s (execOwnStart s) := by
  refine confines_whenRunning (fun u => ?_) s
  split
  · split
    · exact (confined_of_outside u.outside_chooseCurrent).trans (confined_setEngine rfl _ _)
    · exact .refl _ u
  · exact .refl _ u

theorem confines_currentMessageChoice (s : State) : Confines .currentMessageChoice s (execCurrentMessageChoice s) := by
  refine confines_whenRunning (fun u => ?_) s
  split
  · exact .refl _ u
  · exact confined_of_outside u.outside_chooseCurrent

theorem confines_arbitrationLost (bit : Nat) (s : State) : Confines (.arbitrationLost bit) s (execArbitrationLost bit s) := by
  refine confines_whenRunning (fun u => ?_) s
  split
  · split
    · exact confined_setEngine rfl u _
    · exact .refl _ u
  · exact .refl _ u

theorem confines_ownTransmissionAck (s : State) : Confines .ownTransmissionAck s (execOwnTransmissionAck s) := by
  refine confines_whenRunning (fun u => ?_) s
  split
  · exact (confined_of_outside (u.outside_outcome _)).trans (confined_setEngine rfl _ _)
  · exact .refl _ u

theorem confines_attempt (r : AttemptResult) (s : State) : Confines (.attempt r) s (execAttempt r s) := by
  refine confines_whenRunning (fun u => ?_) s
  split
  · cases r <;> exact confined_brokenOff rfl u _
  · exact .refl _ u

theorem confines_busStartByOther (s : State) : Confines .busStartByOther s (execBusStartByOther s) := by
  refine confines_whenRunning (fun u => ?_) s
  split
  · exact .refl _ u
  · exact confined_setEngine rfl u _
  · exact confined_setEngine rfl u _
  · exact confined_setEngine rfl u _
  · exact confined_brokenOff rfl u _
  · exact .refl _ u
  · exact .refl _ u

theorem confines_busStop (s : State) : Confines .busStop s (execBusStop s) := by
  refine confines_whenRunning (fun u => ?_) s
  split
  · exact .refl _ u
  · exact .refl _ u
  · exact confined_setEngine rfl u _
  · exact confined_setEngine rfl u _
  · exact confined_brokenOff rfl u _
  · exact confined_setEngine rfl u _
  · exact .refl _ u

theorem confines_busIdleGap (s : State) : Confines .busIdleGap s (execBusIdleGap s) := by
  refine confines_whenRunning (fun u => ?_) s
  split
  · exact confined_setEngine rfl u _
  · exact confined_setEngine rfl u _
  · exact .refl _ u
  · exact .refl _ u

theorem confines_brokenTransaction (b : Breaker) (s : State) :
    Confines (.brokenTransaction b) s (execBrokenTransaction b s) := by
  refine confines_whenRunning (fun u => ?_) s
  split
  · exact confined_setEngine rfl u _
  · exact confined_setEngine rfl u _
  · exact .refl _ u

theorem confines_stuckBus (s : State) : Confines .stuckBus s (execStuckBus s) := by
  refine confines_whenRunning (fun u => ?_) s
  split
  · exact .refl _ u
  · split
    · exact (confined_of_outside u.outside_countAttempt).trans (confined_enterFault _)
    · exact confined_enterFault u
    · exact confined_enterFault u
    · exact confined_enterFault u
    · exact .refl _ u

theorem confines_faultExit (s : State) : Confines .faultExit s (execFaultExit s) := by
  refine confines_whenRunning (fun u => ?_) s
  split
  · exact confined_withBus rfl rfl
  · exact .refl _ u

theorem confines_transactionReceived (bytes : List Byte) (s : State) :
    Confines (.transactionReceived bytes) s (execTransactionReceived bytes s) := by
  refine confines_whenRunning (fun u => ?_) s
  split
  · split
    · exact confined_receive rfl rfl u _
    · exact .refl _ u
  · exact .refl _ u

/-! ### The outcomes of messages, and RELEASE -/

theorem confines_release (p : Pool) (t : Tag) (s : State) : Confines (.release p t) s (execRelease p t s) := by
  refine confines_takeRequest (fun u => confined_of_outside ?_) s
  split
  · split <;> simp
  · split <;> simp
  · rfl

theorem confines_offerCompletion (t : Tag) (p : Pool) (s : State) :
    Confines (.offerCompletion t p) s (execOfferCompletion t p s) := by
  refine confines_takeNews (fun u => confined_of_outside ?_) s
  split <;> rfl

theorem confines_offerDrop (t : Tag) (p : Pool) (s : State) : Confines (.offerDrop t p) s (execOfferDrop t p s) := by
  refine confines_takeNews (fun u => confined_of_outside ?_) s
  split
  · split <;> simp
  · rfl

theorem confines_probeCompletion (p : Pool) (t : Tag) (s : State) :
    Confines (.probeCompletion p t) s (execProbeCompletion p t s) := by
  refine confines_takeNews (fun u => confined_of_outside ?_) s
  split <;> simp

theorem confines_probeDrop (p : Pool) (t : Tag) (s : State) : Confines (.probeDrop p t) s (execProbeDrop p t s) := by
  refine confines_takeNews (fun u => confined_of_outside ?_) s
  split <;> simp

theorem confines_evictOutcome (p : Pool) (s : State) : Confines (.evictOutcome p) s (execEvictOutcome p s) := by
  refine confines_takeNews (fun u => confined_of_outside ?_) s
  split <;> rfl

/-! ### Frames of the host port -/

theorem confines_hselNFall (hsck : Bool) (s : State) : Confines (.hselNFall hsck) s (execHselNFall hsck s) := by
  refine confines_next ?_
  split
  · exact .refl _ s
  · split <;> exact confined_withPort rfl s _

/-- A judged frame fills the reply buffer, and a frame that carries no request sets a cause flag (R156, R159). -/
theorem confined_dispatch {c : Instr} (hp : writes c .port = true) (ha : writes c .att = true) (s : State) (v : Verdict) :
    Confined c s (s.dispatch v) := by
  cases v with
  | error st echo => exact (confined_withPort hp s _).trans (confined_raise ha _ _)
  | starting echo => exact confined_withPort hp s _
  | execute code ps => exact confined_withPort hp s _

theorem confines_hselNRise (bytes : List Byte) (edges : Fin 8) (s : State) :
    Confines (.hselNRise bytes edges) s (execHselNRise bytes edges s) := by
  have ended : Confined (.hselNRise bytes edges) s (s.withPort { s.port with hselLow := false, frame := none }) :=
    confined_withPort rfl s _
  refine confines_next ?_
  dsimp only
  split
  · exact ended
  · split
    · exact ended.trans (confined_dispatch rfl rfl _ _)
    · exact ended

/-! ### Owners of host requests -/

theorem confined_acknowledge (ps : List Byte) (s : State) : Confined (.acknowledge ps) s (ownAcknowledge ps s).state := by
  unfold ownAcknowledge
  split
  · exact confined_withAtt rfl s _
  · exact .refl _ s

theorem confined_enable (ps : List Byte) (s : State) : Confined (.enable ps) s (ownEnable ps s).state := by
  unfold ownEnable
  split
  · exact confined_withAtt rfl s _
  · exact .refl _ s

theorem outside_lookupAddress (ps : List Byte) (s : State) : (ownLookupAddress ps s).state.outside = s.outside := by
  unfold ownLookupAddress
  split
  · split
    · rfl
    · split
      · rfl
      · split <;> rfl
  · rfl

theorem confines_lookupAddress (ps : List Byte) (s : State) : Confines (.lookupAddress ps) s (execLookupAddress ps s) := by
  unfold execLookupAddress
  split
  · exact confines_next (.refl _ s)
  · exact confines_serve rfl (fun u => confined_of_outside (outside_lookupAddress ps u)) s

theorem confines_lookupAddressClear (ps : List Byte) (s : State) :
    Confines (.lookupAddressClear ps) s (execLookupAddressClear ps s) := by
  unfold execLookupAddressClear
  split
  · exact confines_next (.refl _ s)
  · exact confines_serve rfl (fun u => confined_of_outside (outside_lookupAddress ps u)) s

theorem outside_lookupTag (ps : List Byte) (s : State) : (ownLookupTag ps s).state.outside = s.outside := by
  unfold ownLookupTag
  split
  · dsimp only
    split
    · rfl
    · split <;> rfl
  · rfl

theorem outside_freeList (ps : List Byte) (s : State) : (ownFreeList ps s).state.outside = s.outside := by
  unfold ownFreeList
  split
  · split <;> rfl
  · rfl

theorem outside_ownRevoke (ps : List Byte) (s : State) : (ownRevoke ps s).state.outside = s.outside := by
  unfold ownRevoke
  split
  · split
    · exact s.outside_revoke _
    · rfl
  · rfl

theorem outside_ownWithhold (ps : List Byte) (s : State) : (ownWithhold ps s).state.outside = s.outside := by
  unfold ownWithhold
  split
  · split
    · rfl
    · split
      · exact s.outside_withhold _
      · split
        · exact s.outside_unwithhold _
        · rfl
  · rfl

theorem confines_withholdOn (ps : List Byte) (s : State) : Confines (.withholdOn ps) s (execWithholdOn ps s) := by
  unfold execWithholdOn
  split
  · exact confines_next (.refl _ s)
  · exact confines_serve rfl (fun u => confined_of_outside (outside_ownWithhold ps u)) s

theorem confines_withholdOff (ps : List Byte) (s : State) : Confines (.withholdOff ps) s (execWithholdOff ps s) := by
  unfold execWithholdOff
  split
  · exact confines_next (.refl _ s)
  · exact confines_serve rfl (fun u => confined_of_outside (outside_ownWithhold ps u)) s

theorem confined_classSet (ps : List Byte) (s : State) : Confined (.classSet ps) s (ownClassSet ps s).state := by
  unfold ownClassSet
  split
  · split
    · split
      · exact confined_withLease (.inr rfl) (.inr rfl) (.inl rfl) (.inr rfl)
      · exact .refl _ s
    · exact .refl _ s
  · exact .refl _ s

theorem outside_classGet (ps : List Byte) (s : State) : (ownClassGet ps s).state.outside = s.outside := by
  unfold ownClassGet
  split
  · split <;> rfl
  · rfl

theorem confined_timingSet (ps : List Byte) (s : State) : Confined (.timingSet ps) s (ownTimingSet ps s).state := by
  unfold ownTimingSet
  split
  · dsimp only
    split
    · exact confined_withLease (.inr rfl) (.inl rfl) (.inr rfl) (.inl rfl)
    · exact .refl _ s
  · exact .refl _ s

theorem outside_bindingRead (ps : List Byte) (s : State) : (ownBindingRead ps s).state.outside = s.outside := by
  unfold ownBindingRead
  split
  · split <;> rfl
  · rfl

/-- An accepted Bind writes the shadow and the store state, and leaves the flash to the rewrite (R131, R138). -/
theorem confined_bind (ps : List Byte) (s : State) : Confined (.bind ps) s (ownBind ps s).state := by
  unfold ownBind
  split
  · rename_i b _
    rcases s.bind_cases b with ⟨st, d, h, -⟩ | ⟨k, target, -, -, -, -, h⟩
    · rw [h]
      exact .refl _ s
    · rw [h, State.acceptBind_eq]
      have stored : Confined (.bind ps) s (s.withStore (s.boundStore k b target)) := confined_withStore rfl (.inr rfl)
      refine stored.trans (confined_of_outside ?_)
      exact (State.outside_moveAway _ _ _).trans (State.outside_earlyEffect _ _ _ _)
  · exact .refl _ s

theorem confined_unbind (ps : List Byte) (s : State) : Confined (.unbind ps) s (ownUnbind ps s).state := by
  unfold ownUnbind
  split
  · rcases s.unbind_cases (tagOfBytes ps) with ⟨st, d, h, -⟩ | ⟨k, b, target, -, -, h⟩
    · rw [h]
      exact .refl _ s
    · rw [h]
      exact confined_withStore rfl (.inr rfl)
  · exact .refl _ s

/-- A Restart builds the lease engine, the bus engine and the attention unit anew, at the same bit rate (R122, R184). -/
theorem confined_restart (ps : List Byte) (sent : Nat) (outbid : Bool) (s : State) :
    Confined (.restart ps sent outbid) s (s.restart sent outbid) :=
  ((confined_withLease (l := buildLeaseEngine s.store) (.inl rfl) (.inl rfl) (.inl rfl) (.inl rfl)).trans
    (confined_withBus (b := s.bus.restarted sent outbid) rfl rfl)).trans (confined_withAtt rfl _ .restarted)

/-! ### The scan and the rewrite -/

theorem confines_scanSectorErase (reads : Sector) (s : State) :
    Confines (.scanSectorErase reads) s (execScanSectorErase reads s) := by
  refine confines_whenRunning (fun u => ?_) s
  split
  · exact confined_withStore rfl (.inl rfl)
  · exact .refl _ u

theorem confines_scanRepair (image : Sector) (mark : Bool) (erase retry : Sector) (s : State) :
    Confines (.scanRepair image mark erase retry) s (execScanRepair image mark erase retry s) := by
  refine confines_whenRunning (fun u => ?_) s
  split
  · exact confined_withStore rfl (.inl rfl)
  · exact .refl _ u

/-- The load of the shadow reads the flash and leaves it (R147). -/
theorem Store.afterErases_flash (st : Store) : st.afterErases.flash = st.flash := by
  obtain h | ⟨i, x, l, y, -, h⟩ := st.afterErases_cases <;> rw [h]

/-- The end of the scan settles the store over its flash, builds the lease engine and sets two cause flags (R149). -/
theorem confined_endScan {s : State} {st : Store} (o : ScanOutcome) (h : st.flash = s.store.flash) :
    Confined .scanEnd s (s.endScan st o) := by
  intro x hx
  cases x with
  | flash => exact h
  | port => rfl
  | transceiver => rfl
  | rate => rfl
  | _ => cases hx

theorem confines_scanEnd (s : State) : Confines .scanEnd s (execScanEnd s) := by
  refine confines_whenRunning (fun u => ?_) s
  split
  · exact confined_endScan _ u.store.afterErases_flash
  · exact .refl _ u

/-- The outcome of a rewrite settles the store and sets a cause flag (R141). -/
theorem confined_rewriteOutcome {c : Instr} (hc : writes c .store = true) (ha : writes c .att = true) (s : State) (r : Rewrite)
    (o : RewriteOutcome) : Confined c s (s.rewriteOutcome r o) := by
  have settled : Confined c s (s.withStore (s.store.settled r o)) := confined_withStore hc (.inr rfl)
  rw [State.rewriteOutcome_eq]
  split
  · exact (settled.trans (confined_of_outside (State.outside_ceasePinned _ _))).trans (confined_raise ha _ _)
  · exact settled.trans (confined_raise ha _ _)

theorem confines_imageProgram (reads : Sector) (s : State) : Confines (.imageProgram reads) s (execImageProgram reads s) := by
  refine confines_whenRunning (fun u => ?_) s
  split
  · split
    · exact confined_withStore rfl (.inl rfl)
    · exact .refl _ u
  · exact .refl _ u

theorem confines_validMark (reads : Bool) (s : State) : Confines (.validMark reads) s (execValidMark reads s) := by
  refine confines_whenRunning (fun u => ?_) s
  split
  · split
    · split
      · dsimp only
        split
        · exact confined_withStore rfl (.inl rfl)
        · exact (confined_withStore rfl (.inl rfl)).trans (confined_rewriteOutcome rfl rfl _ _ _)
      · exact confined_withStore rfl (.inl rfl)
    · exact .refl _ u
  · exact .refl _ u

theorem confines_targetErase (reads : Sector) (s : State) : Confines (.targetErase reads) s (execTargetErase reads s) := by
  refine confines_whenRunning (fun u => ?_) s
  split
  · split
    · exact (confined_withStore rfl (.inl rfl)).trans (confined_rewriteOutcome rfl rfl _ _ _)
    · exact .refl _ u
  · exact .refl _ u

theorem confines_supersededErase (reads : Sector) (s : State) :
    Confines (.supersededErase reads) s (execSupersededErase reads s) := by
  refine confines_whenRunning (fun u => ?_) s
  split
  · split
    · split
      · exact (confined_withStore rfl (.inl rfl)).trans (confined_rewriteOutcome rfl rfl _ _ _)
      · split
        · exact (confined_withStore rfl (.inl rfl)).trans (confined_rewriteOutcome rfl rfl _ _ _)
        · exact confined_withStore rfl (.inl rfl)
    · exact .refl _ u
  · exact .refl _ u

/-! ### Resets -/

theorem confined_hardReset (spd : Bool) (cut : FlashCut) (s : State) :
    Confined (.hardReset spd cut) s (s.volatileLost .held spd cut) := by
  intro x hx
  cases x <;> cases hx

/-- A loss of supply leaves the bit rate (log 14), and nothing else. -/
theorem confines_powerLoss (cut : FlashCut) (s : State) : Confines (.powerLoss cut) s (execPowerLoss cut s) := by
  refine confines_next ?_
  split
  · exact .refl _ s
  · intro x hx
    cases x with
    | rate => rfl
    | _ => cases hx

/-- The end of a hard reset classifies the sectors and leaves the flash (R146). -/
theorem confines_hardResetEnd (s : State) : Confines .hardResetEnd s (execHardResetEnd s) := by
  refine confines_next ?_
  split
  · exact (confined_of_outside rfl : Confined .hardResetEnd s (s.withPower .running)).trans
      (confined_withStore (st := s.store.beginScan) rfl (.inr rfl))
  · exact .refl _ s

/-! ### O60: every command -/

/-- Every command changes only what it may change. -/
theorem exec_confines (c : Instr) (s : State) : Confines c s (exec c s) := by
  cases c with
  | hardReset spd cut => exact confines_next (confined_hardReset spd cut s)
  | hardResetEnd => exact confines_hardResetEnd s
  | powerLoss cut => exact confines_powerLoss cut s
  | scanSectorErase reads => exact confines_scanSectorErase reads s
  | scanRepair image mark erase retry => exact confines_scanRepair image mark erase retry s
  | scanEnd => exact confines_scanEnd s
  | imageProgram reads => exact confines_imageProgram reads s
  | validMark reads => exact confines_validMark reads s
  | targetErase reads => exact confines_targetErase reads s
  | supersededErase reads => exact confines_supersededErase reads s
  | leaseClockTick => exact confines_whenReady confined_tick s
  | expiry p => exact confines_whenReady (fun u => confined_of_outside (u.outside_expire p)) s
  | endOfQuarantine p => exact confines_whenReady (fun u => confined_of_outside (u.outside_endQuarantine p)) s
  | adoptionWindowClose => exact confines_whenReady (confined_closeWindow rfl) s
  | offerTimeout p => exact confines_whenReady (fun u => confined_of_outside (u.outside_lapseRunOut p)) s
  | probeTimeout p => exact confines_whenReady (fun u => confined_of_outside (u.outside_probeRunOut p)) s
  | busStartByOther => exact confines_busStartByOther s
  | ownStart => exact confines_ownStart s
  | currentMessageChoice => exact confines_currentMessageChoice s
  | arbitrationLost bit => exact confines_arbitrationLost bit s
  | transactionReceived bytes => exact confines_transactionReceived bytes s
  | brokenTransaction b => exact confines_brokenTransaction b s
  | busStop => exact confines_busStop s
  | busIdleGap => exact confines_busIdleGap s
  | ownTransmissionAck => exact confines_ownTransmissionAck s
  | attempt r => exact confines_attempt r s
  | stuckBus => exact confines_stuckBus s
  | faultExit => exact confines_faultExit s
  | join t cls hint => exact confines_takeRequest (fun u => confined_join u t cls hint) s
  | claim t a => exact confines_takeRequest (fun u => confined_of_outside (u.outside_claim t a)) s
  | renew src t cls => exact confines_takeRequest (fun u => confined_of_outside (u.outside_renew src t cls)) s
  | release src t => exact confines_release src t s
  | resolve src q => exact confines_takeRequest (fun u => confined_of_outside (u.outside_enqueue _)) s
  | whois src a => exact confines_takeRequest (fun u => confined_of_outside (u.outside_enqueue _)) s
  | snoopReport p => exact confines_takeNews (fun u => confined_snoop u p) s
  | offerCompletion t p => exact confines_offerCompletion t p s
  | offerDrop t p => exact confines_offerDrop t p s
  | probeCompletion p t => exact confines_probeCompletion p t s
  | probeDrop p t => exact confines_probeDrop p t s
  | evictOutcome p => exact confines_evictOutcome p s
  | replyOutcome => exact confines_takeNews (Confined.refl _) s
  | hselNFall hsck => exact confines_hselNFall hsck s
  | hselNRise bytes edges => exact confines_hselNRise bytes edges s
  | nop _ => exact confines_serve rfl (confined_withoutParams (Confined.refl _)) s
  | ident _ => exact confines_serve rfl (confined_withoutParams (Confined.refl _)) s
  | status _ => exact confines_serve rfl (confined_withoutParams (Confined.refl _)) s
  | acknowledge ps => exact confines_serve rfl (confined_acknowledge ps) s
  | enable ps => exact confines_serve rfl (confined_enable ps) s
  | lookupAddress ps => exact confines_lookupAddress ps s
  | lookupAddressClear ps => exact confines_lookupAddressClear ps s
  | lookupTag ps => exact confines_serve rfl (fun u => confined_of_outside (outside_lookupTag ps u)) s
  | scan _ =>
    exact confines_serve rfl (confined_withoutParams fun u => confined_of_outside (u.outside_clearMarks _)) s
  | freeList ps => exact confines_serve rfl (fun u => confined_of_outside (outside_freeList ps u)) s
  | revoke ps => exact confines_serve rfl (fun u => confined_of_outside (outside_ownRevoke ps u)) s
  | withholdOn ps => exact confines_withholdOn ps s
  | withholdOff ps => exact confines_withholdOff ps s
  | classSet ps => exact confines_serve rfl (confined_classSet ps) s
  | classGet ps => exact confines_serve rfl (fun u => confined_of_outside (outside_classGet ps u)) s
  | timingSet ps => exact confines_serve rfl (confined_timingSet ps) s
  | timingGet _ => exact confines_serve rfl (confined_withoutParams (Confined.refl _)) s
  | bind ps => exact confines_serve rfl (confined_bind ps) s
  | unbind ps => exact confines_serve rfl (confined_unbind ps) s
  | bindingRead ps => exact confines_serve rfl (fun u => confined_of_outside (outside_bindingRead ps u)) s
  | restart ps sent outbid => exact confines_serve rfl (confined_withoutParams (confined_restart ps sent outbid)) s

/-! ### The commands that write a setting, by name -/

theorem writesSetting_clock {c : Instr} (h : writesSetting c .clock = true) : c = .leaseClockTick := by
  cases c <;> simp [writesSetting] at h ⊢

theorem writesSetting_window {c : Instr} (h : writesSetting c .window = true) :
    c = .adoptionWindowClose ∨ c = .leaseClockTick ∨ ∃ ps, c = .timingSet ps := by
  cases c <;> simp [writesSetting] at h ⊢

theorem writesSetting_classes {c : Instr} (h : writesSetting c .classes = true) : ∃ ps, c = .classSet ps := by
  cases c <;> simp [writesSetting] at h ⊢

theorem writesSetting_timing {c : Instr} (h : writesSetting c .timing = true) : ∃ ps, c = .timingSet ps := by
  cases c <;> simp [writesSetting] at h ⊢

theorem writesSetting_rate {c : Instr} (h : writesSetting c .rate = true) : ∃ spd cut, c = .hardReset spd cut := by
  cases c <;> simp [writesSetting] at h ⊢

/-- Settles O60: each aspect is one that the command may not change. -/
theorem blocksAndSettingsChangeOnlyByTheirCommands : Obligations.BlocksAndSettingsChangeOnlyByTheirCommands := by
  unfold Obligations.BlocksAndSettingsChangeOnlyByTheirCommands
  refine ⟨fun c s t h => ?blocks, fun c s t h => ⟨fun hr => ?settings, fun hn => ?rate, ?flash⟩⟩
  all_goals have kept := exec_confines c s t h
  case blocks => exact ⟨kept .store, kept .port, kept .att, fun hc => Prod.mk.inj (kept .transceiver hc)⟩
  case settings =>
    have unwritten : ∀ {x}, ¬ writesSetting c x = true → (isReset c || writesSetting c x) = false := fun hx => by
      rw [hr, eq_false_of_ne_true hx]
      rfl
    refine ⟨fun hn => kept .clock (unwritten fun hw => hn (writesSetting_clock hw)),
      fun hclose htick htiming => kept .window (unwritten fun hw => ?_),
      fun hn => kept .classes (unwritten fun hw => ?_), fun hn => kept .timing (unwritten fun hw => ?_)⟩
    · obtain hc | hc | ⟨ps, hc⟩ := writesSetting_window hw
      · exact hclose hc
      · exact htick hc
      · exact htiming ps hc
    · obtain ⟨ps, hc⟩ := writesSetting_classes hw
      exact hn ps hc
    · obtain ⟨ps, hc⟩ := writesSetting_timing hw
      exact hn ps hc
  case rate =>
    refine kept .rate (eq_false_of_ne_true fun hw => ?_)
    obtain ⟨spd, cut, hc⟩ := writesSetting_rate hw
    exact hn spd cut hc
  case flash =>
    refine ⟨fun ps hc => kept .flash ?_, fun hc => kept .flash ?_⟩
    · rcases hc with rfl | rfl <;> rfl
    · rcases hc with rfl | rfl <;> rfl

end Sys2Proof.Machine
end

section
/-! PROOFS. Resolution (O24), the choice of the current message (O25), and Revoke (O42). -/

namespace Sys2Proof.Machine

open Sys2Proof.Safety

/-! ### O24: RESOLVE -/

theorem Lease.live_for_iff {l : Lease} {t : Tag} :
    (l.state == .live && l.holder == some t) = true ↔ ∃ c d, l = .live t c d := by
  cases l <;> simp [Lease.state, Lease.holder]

theorem Lease.stale_for_iff {l : Lease} {t : Tag} :
    (l.state == .stale && l.holder == some t) = true ↔ ∃ c n f, l = .stale t c n f := by
  cases l <;> simp [Lease.state, Lease.holder]

/-- A search for entries of one holder finds its only entry (R3). -/
theorem State.find?_of_holder {s : State} {f : Pool → Bool} {p : Pool} {t : Tag} (hone : OneHolderLaw s) (hp : f p = true)
    (hf : ∀ q, f q = true → (s.leaseOf q).holder = some t) : pools.find? f = some p := by
  refine find?_finRange_eq_some_iff.2 ⟨hp, fun q hq => eq_false_of_ne_true fun hfq => ?_⟩
  exact absurd (hone q p t (hf q hfq) (hf p hp)) (ne_of_lt hq)

theorem State.liveFind?_eq_none {s : State} {t : Tag} (h : ∀ p c d, s.leaseOf p ≠ .live t c d) :
    pools.find? (fun p => (s.leaseOf p).state == .live && (s.leaseOf p).holder == some t) = none :=
  List.find?_eq_none.2 fun p _ hf =>
    have ⟨c, d, hl⟩ := Lease.live_for_iff.1 hf
    h p c d hl

theorem State.staleFind?_eq_none {s : State} {t : Tag} (h : ∀ p c n f, s.leaseOf p ≠ .stale t c n f) :
    pools.find? (fun p => (s.leaseOf p).state == .stale && (s.leaseOf p).holder == some t) = none :=
  List.find?_eq_none.2 fun p _ hf =>
    have ⟨c, n, ph, hl⟩ := Lease.stale_for_iff.1 hf
    h p c n ph hl

/-- The holder of a LIVE lease is found there (R80, line 1). -/
theorem State.resolveResult_live {s : State} {q : Tag} {p : Pool} {c : ClassId} {d : LeaseTime} (hone : OneHolderLaw s)
    (hl : s.leaseOf p = .live q c d) : s.resolveResult q = (.live, poolByte p) := by
  have hfind : pools.find? (fun p => (s.leaseOf p).state == .live && (s.leaseOf p).holder == some q) = some p :=
    State.find?_of_holder (t := q) hone (Lease.live_for_iff.2 ⟨c, d, hl⟩) fun r hr => by
      obtain ⟨c', d', hl'⟩ := Lease.live_for_iff.1 hr
      rw [hl']
      rfl
  simp only [State.resolveResult, hfind]

/-- The holder of a STALE lease is found there, for it has no LIVE one (R3; R80, line 2). -/
theorem State.resolveResult_stale {s : State} {q : Tag} {p : Pool} {c : ClassId} {n : Fin 4} {f : ProbePhase}
    (hone : OneHolderLaw s) (hl : s.leaseOf p = .stale q c n f) : s.resolveResult q = (.stale, poolByte p) := by
  have hlive : ∀ r c' d, s.leaseOf r ≠ .live q c' d := fun r c' d hr => by
    obtain rfl := hone r p q (congrArg Lease.holder hr) (congrArg Lease.holder hl)
    exact nomatch hl.symm.trans hr
  have hfind : pools.find? (fun p => (s.leaseOf p).state == .stale && (s.leaseOf p).holder == some q) = some p :=
    State.find?_of_holder (t := q) hone (Lease.stale_for_iff.2 ⟨c, n, f, hl⟩) fun r hr => by
      obtain ⟨c', n', f', hl'⟩ := Lease.stale_for_iff.1 hr
      rw [hl']
      rfl
  simp only [State.resolveResult, State.liveFind?_eq_none hlive, hfind]

/-- Without a LIVE or STALE lease of the tag its binding decides (R80, lines 3 and 4). -/
theorem State.resolveResult_notHeld {s : State} {q : Tag} (hlive : ∀ p c d, s.leaseOf p ≠ .live q c d)
    (hstale : ∀ p c n f, s.leaseOf p ≠ .stale q c n f) :
    (∀ b, s.store.bindingOf q = some b → s.resolveResult q = (.boundAbsent, poolByte b.addr)) ∧
    (s.store.bindingOf q = none → s.resolveResult q = (.unknown, 0x00)) := by
  constructor
  · intro b hb
    simp only [State.resolveResult, State.liveFind?_eq_none hlive, State.staleFind?_eq_none hstale, hb]
  · intro hb
    simp only [State.resolveResult, State.liveFind?_eq_none hlive, State.staleFind?_eq_none hstale, hb]

theorem exec_resolve {s : State} {rest : List Report} {src : Byte} {q : Tag} {r : ResolveResult} {a : Byte}
    (hr : Reported s (.request src (.resolve q)) rest) (hres : s.resolveResult q = (r, a)) :
    exec (.resolve src q) s = .next (queued (taken s rest) (.answerResolve src q r a)) := by
  have hres' : (taken s rest).resolveResult q = (r, a) := hres
  rw [exec, execResolve, takeRequest_reported _ hr, hres']
  rfl

/-! ### O24: WHOIS -/

theorem poolOfByte_outside {a : Byte} (h : a.toNat < 0x10 ∨ 0x80 ≤ a.toNat) : poolOfByte a = none :=
  dif_neg fun hin => by omega

theorem State.whoisAnswer_outside (s : State) {a : Byte} (ha : poolOfByte a = none) : s.whoisAnswer a = (none, 0) := by
  simp only [State.whoisAnswer, ha]

theorem State.whoisAnswer_live {s : State} {p : Pool} {t : Tag} {c : ClassId} {d : LeaseTime}
    (hl : s.leaseOf p = .live t c d) : s.whoisAnswer (poolByte p) = (some .live, t) := by
  simp only [State.whoisAnswer, poolOfByte_poolByte, hl]

theorem State.whoisAnswer_stale {s : State} {p : Pool} {t : Tag} {c : ClassId} {n : Fin 4} {f : ProbePhase}
    (hl : s.leaseOf p = .stale t c n f) : s.whoisAnswer (poolByte p) = (some .stale, t) := by
  simp only [State.whoisAnswer, poolOfByte_poolByte, hl]

/-- Of an entry that is neither LIVE nor STALE only the state is told (R81). -/
theorem State.whoisAnswer_stateOnly {s : State} {p : Pool} (hlive : ∀ t c d, s.leaseOf p ≠ .live t c d)
    (hstale : ∀ t c n f, s.leaseOf p ≠ .stale t c n f) :
    s.whoisAnswer (poolByte p) = (some (s.leaseOf p).state, 0) := by
  cases hl : s.leaseOf p with
  | live t c d => exact absurd hl (hlive t c d)
  | stale t c n f => exact absurd hl (hstale t c n f)
  | _ => simp only [State.whoisAnswer, poolOfByte_poolByte, hl]

theorem exec_whois {s : State} {rest : List Report} {src a : Byte} {k : Summary} {t : Tag}
    (hr : Reported s (.request src (.whois a)) rest) (hans : s.whoisAnswer a = (k, t)) :
    exec (.whois src a) s = .next (queued (taken s rest) (.answerWhois src a k t)) := by
  have hans' : (taken s rest).whoisAnswer a = (k, t) := hans
  rw [exec, execWhois, takeRequest_reported _ hr, hans']
  rfl

/-- Settles O24: the lines of the two tables, each on the state that the request has left. -/
theorem resolveAndWhoisAnswered : Obligations.ResolveAndWhoisAnswered := by
  unfold Obligations.ResolveAndWhoisAnswered
  refine ⟨fun s rest src q hr hone hshadow => ?resolve, fun s rest src a hr => ?whois⟩
  case resolve =>
    refine ⟨fun p c d hl => exec_resolve hr (State.resolveResult_live hone hl),
      fun p c n f hl => exec_resolve hr (State.resolveResult_stale hone hl), fun hlive hstale => ?_⟩
    obtain ⟨bound, unbound⟩ := State.resolveResult_notHeld hlive hstale
    refine ⟨fun j b hj ht => exec_resolve hr (bound b ?_), fun hu => exec_resolve hr (unbound (State.bindingOf_eq_none hu))⟩
    exact ht ▸ Store.bindingOf_of_binding hshadow hj
  case whois =>
    refine ⟨fun ha => exec_whois hr (s.whoisAnswer_outside (poolOfByte_outside ha)), ?_⟩
    rintro p rfl
    exact ⟨fun t c d hl => exec_whois hr (State.whoisAnswer_live hl),
      fun t c n f hl => exec_whois hr (State.whoisAnswer_stale hl),
      fun hlive hstale => exec_whois hr (State.whoisAnswer_stateOnly hlive hstale)⟩

/-! ### O25: the choice of the current message -/

theorem EvictDue.isWaiting_iff {e : EvictDue} : e.isWaiting = true ↔ ∃ t r, e = .waiting t r := by
  cases e <;> simp [EvictDue.isWaiting]

theorem Lease.probeDue_iff {l : Lease} : l.probeDue = true ↔ ∃ t c n, l = .stale t c n .due := by
  cases l with
  | stale t c n phase => cases phase <;> simp [Lease.probeDue]
  | _ => simp [Lease.probeDue]

/-- What the search for a notice asks of an entry (R115). -/
theorem noticed_iff {s : State} {p : Pool} :
    ((s.entry p).evict.isWaiting || (s.leaseOf p).probeDue) = true ↔ Noticed s p := by
  rw [Bool.or_eq_true, EvictDue.isWaiting_iff, Lease.probeDue_iff, Noticed]

theorem State.noticeEntry_of_lowest {s : State} {p : Pool} (h : Noticed s p) (hlow : ∀ q, q < p → ¬ Noticed s q) :
    s.noticeEntry = some p :=
  find?_finRange_eq_some_iff.2
    ⟨noticed_iff.2 h, fun q hq => eq_false_of_ne_true fun hf => hlow q hq (noticed_iff.1 hf)⟩

theorem State.noticeEntry_of_none {s : State} (h : ∀ p, ¬ Noticed s p) : s.noticeEntry = none :=
  List.find?_eq_none.2 fun p _ hf => h p (noticed_iff.1 hf)

/-- A waiting EVICT is taken whatever the lease of its entry (R93, R115). -/
theorem State.collectNotice_evict {s : State} {p : Pool} {t : Tag} {r : EvictReason}
    (he : (s.entry p).evict = .waiting t r) :
    s.collectNotice p = { s with
      lease := { s.lease with table := s.lease.table.set p { s.entry p with evict := .sending t r } }
      bus := { s.bus with current := some ⟨.notice (.evict p t r), 0⟩ } } := by
  simp only [State.collectNotice, he]
  rfl

/-- A PROBE that is due is taken where no EVICT waits (R65, R115). -/
theorem State.collectNotice_probe {s : State} {p : Pool} {t : Tag} {c : ClassId} {n : Fin 4}
    (he : ∀ u r, (s.entry p).evict ≠ .waiting u r) (hl : s.leaseOf p = .stale t c n .due) :
    s.collectNotice p = { s with
      lease := { s.lease with table := s.lease.table.set p { s.entry p with lease := .stale t c n .sending } }
      bus := { s.bus with current := some ⟨.notice (.probe p t), 0⟩ } } := by
  have hl' : (s.entry p).lease = .stale t c n .due := hl
  unfold State.collectNotice
  dsimp only
  split
  · exact absurd ‹_› (he _ _)
  · simp only [hl', Lease.takeProbe]
    rfl

theorem State.chooseCurrent_current {s : State} (h : s.bus.current ≠ none) : s.chooseCurrent = s := by
  obtain ⟨c, hc⟩ := Option.ne_none_iff_exists'.1 h
  simp only [State.chooseCurrent, hc]

theorem State.chooseCurrent_head {s : State} (hc : s.bus.current = none) (hq : s.bus.queue ≠ []) :
    s.chooseCurrent = { s with bus := { s.bus with current := some ⟨.head, 0⟩ } } := by
  obtain ⟨m, l, hml⟩ := List.exists_cons_of_ne_nil hq
  simp only [State.chooseCurrent, hc, hml]
  rfl

/-- With nothing queued the notice of the lowest entry that has one is collected (R115). -/
theorem State.chooseCurrent_notice {s : State} {p : Pool} (hc : s.bus.current = none) (hq : s.bus.queue = [])
    (hp : s.noticeEntry = some p) : s.chooseCurrent = s.collectNotice p := by
  simp only [State.chooseCurrent, hc, hq, hp]

theorem State.chooseCurrent_nothing {s : State} (hc : s.bus.current = none) (hq : s.bus.queue = [])
    (hn : s.noticeEntry = none) : s.chooseCurrent = s := by
  simp only [State.chooseCurrent, hc, hq, hn]

theorem exec_currentMessageChoice {s : State} (hs : s.power = .running) (he : s.bus.engine ≠ .fault) :
    exec .currentMessageChoice s = .next s.chooseCurrent := by
  rw [exec, execCurrentMessageChoice, whenRunning_running _ hs, if_neg he]

/-- Settles O25: a current message, the head of the queue, the notice of the lowest entry, or none. -/
theorem choiceOfTheCurrentMessage : Obligations.ChoiceOfTheCurrentMessage := by
  unfold Obligations.ChoiceOfTheCurrentMessage
  intro s hs he
  rw [exec_currentMessageChoice hs he]
  refine ⟨fun h => congrArg _ (State.chooseCurrent_current h), fun hc =>
    ⟨fun hq => congrArg _ (State.chooseCurrent_head hc hq), fun hq => ⟨fun p hp hlow => ?notice, fun hn => ?nothing⟩⟩⟩
  case notice =>
    rw [State.chooseCurrent_notice hc hq (State.noticeEntry_of_lowest hp hlow)]
    exact ⟨fun t r hev => congrArg _ (State.collectNotice_evict hev),
      fun t c n hev hl => congrArg _ (State.collectNotice_probe hev hl)⟩
  case nothing => exact congrArg _ (State.chooseCurrent_nothing hc hq (State.noticeEntry_of_none hn))

/-! ### O42: Revoke -/

theorem exec_revoke {s : State} {ps : List Byte} (h : Asked s .revoke ps) {x : Answer} (hx : ownRevoke ps s = x) :
    exec (.revoke ps) s = .next (replied x.state x.status .revoke x.data) := by
  subst hx
  exact serve_asked _ h

theorem ownRevoke_pool (s : State) (p : Pool) : ownRevoke [poolByte p] s = s.revoke p := by
  simp only [ownRevoke, poolOfByte_poolByte]

theorem ownRevoke_outside {a : Byte} (h : ∀ p, a ≠ poolByte p) (s : State) : ownRevoke [a] s = .badParam s := by
  have ha : poolOfByte a = none :=
    Option.eq_none_iff_forall_ne_some.2 fun p hp => h p (poolByte_of_poolOfByte hp)
  simp only [ownRevoke, ha]

/-- A new notice of an entry leaves its lease as it is (R7, R93). -/
@[simp] theorem State.leaseOf_setEvict (s : State) (p : Pool) (t : Tag) (r : EvictReason) :
    (s.setEvict p t r).leaseOf p = s.leaseOf p := by
  rw [State.leaseOf, State.setEvict, State.entry_setEntry_self]
  rfl

/-- A held entry is withdrawn with its new notice as it would be without one (R89). -/
theorem State.withdraw_noticed {s : State} {p : Pool} {l : Lease} (t : Tag) (h : s.leaseOf p = l) (hf : l.isFree = false)
    (hs : l.slot = none) :
    Withdrawn (s.setEvict p t .admin) p t s.lease.slots ((s.setEvict p t .admin).withdraw p t) :=
  State.withdraw_noSlot (s := s.setEvict p t .admin) t ((s.leaseOf_setEvict p t .admin).trans h) hf hs

theorem State.revoke_live {s : State} {p : Pool} {t : Tag} {c : ClassId} {d : LeaseTime}
    (hl : s.leaseOf p = .live t c d) : s.revoke p = .ok ((s.setEvict p t .admin).withdraw p t) [] := by
  rw [State.revoke, hl]

theorem State.revoke_stale {s : State} {p : Pool} {t : Tag} {c : ClassId} {n : Fin 4} {f : ProbePhase}
    (hl : s.leaseOf p = .stale t c n f) : s.revoke p = .ok ((s.setEvict p t .admin).withdraw p t) [] := by
  rw [State.revoke, hl]

/-- The cancelled offer's tag is told REVOKED if a place is free (R39, R90). -/
theorem State.revoke_offered {s : State} {p : Pool} {t : Tag} {c : ClassId} {k : SlotId}
    (hl : s.leaseOf p = .offered t c k) : s.revoke p = .ok (revoked (s.withdraw p t) t) [] := by
  rw [State.revoke, hl, ← State.refuseRevoked_eq_revoked]

/-- A quarantine that is not pinned ends with FREE at the tail, its last holder kept (R91). -/
theorem State.revoke_quarantine {s : State} {p : Pool} {t : Tag} {d : LeaseTime} (hl : s.leaseOf p = .quarantine t d)
    (hp : s.store.pinned p = false) :
    s.revoke p = .ok (moved s p (.free (some t)) (s.lease.freeList ++ [p]) s.lease.slots) [] := by
  have hfree := s.toFree_spec p (some t) .tail (by rw [hl]; rfl)
  rw [hp, hl] at hfree
  rw [State.revoke, hl]
  exact congrArg (Answer.ok · []) hfree

theorem State.revoke_nothing {s : State} {p : Pool}
    (h : (∃ l, s.leaseOf p = .free l) ∨ s.leaseOf p = .reserved ∨ s.leaseOf p = .withheld) :
    s.revoke p = .refused s .nothing := by
  obtain ⟨l, hl⟩ | hl | hl := h <;> rw [State.revoke, hl]

/-- Settles O42: LIVE and STALE are withdrawn on the state that has the notice, and every other state by its own line. -/
theorem revokeOfAnAddress : Obligations.RevokeOfAnAddress := by
  unfold Obligations.RevokeOfAnAddress
  refine ⟨fun s a h ha => exec_revoke h (ownRevoke_outside ha s), fun s p h => ?_⟩
  have run : ∀ {x : Answer}, s.revoke p = x →
      exec (.revoke [poolByte p]) s = .next (replied x.state x.status .revoke x.data) :=
    fun hx => exec_revoke h ((ownRevoke_pool s p).trans hx)
  refine ⟨fun t c d hl => ⟨_, run (State.revoke_live hl), ?live⟩, fun t c n f hl => ⟨_, run (State.revoke_stale hl), ?stale⟩,
    fun t c k hl => ⟨_, run (State.revoke_offered hl), ?offered⟩,
    fun t d hl hp => run (State.revoke_quarantine hl hp), fun hl => run (State.revoke_nothing hl)⟩
  case live => exact State.withdraw_noticed t hl rfl rfl
  case stale => exact State.withdraw_noticed t hl rfl rfl
  case offered =>
    have hw := s.withdraw_spec p t (by rw [hl]; rfl)
    rwa [hl] at hw

end Sys2Proof.Machine
end

section
/-! SUPPORT. What reaches the queue of the bus engine: messages behind the others, in places that are free or that were reserved
for them (R108, R112, R113). -/

namespace Sys2Proof.Machine

open Sys2Proof.Safety

/-! ### Operations that leave the bus engine alone -/

@[simp] theorem State.setLease_bus (s : State) (p : Pool) (l : Lease) : (s.setLease p l).bus = s.bus := rfl
@[simp] theorem State.setEvict_bus (s : State) (p : Pool) (t : Tag) (r : EvictReason) : (s.setEvict p t r).bus = s.bus := rfl
@[simp] theorem State.markEntry_bus (s : State) (p : Pool) : (s.markEntry p).bus = s.bus := rfl

@[simp] theorem State.toFree_bus (s : State) (p : Pool) (last : Option Tag) (x : Place) : (s.toFree p last x).bus = s.bus := by
  unfold State.toFree
  split <;> rfl

@[simp] theorem State.withdraw_bus (s : State) (p : Pool) (t : Tag) : (s.withdraw p t).bus = s.bus := by
  unfold State.withdraw
  split
  · rfl
  · split <;> rfl

@[simp] theorem State.ceasePinned_bus (s : State) (p : Pool) : (s.ceasePinned p).bus = s.bus := by
  unfold State.ceasePinned
  split
  · rfl
  · split <;> rfl

@[simp] theorem State.lapse_bus (s : State) (p : Pool) (o : OfferSlot) : (s.lapse p o).bus = s.bus := by
  unfold State.lapse
  split <;> simp

@[simp] theorem State.probeUnanswered_bus (s : State) (p : Pool) : (s.probeUnanswered p).bus = s.bus := by
  unfold State.probeUnanswered
  split
  · split <;> simp
  · rfl

@[simp] theorem State.expire_bus (s : State) (p : Pool) : (s.expire p).bus = s.bus := by
  obtain h | ⟨t, c, -, ⟨-, h⟩ | ⟨-, h⟩⟩ := s.expire_spec p <;> rw [h]
  · exact s.withdraw_bus p t
  · rfl

@[simp] theorem State.endQuarantine_bus (s : State) (p : Pool) : (s.endQuarantine p).bus = s.bus := by
  obtain h | ⟨t, -, h⟩ := s.endQuarantine_spec p <;> rw [h]
  exact s.toFree_bus p _ _

@[simp] theorem State.closeWindow_bus (s : State) : s.closeWindow.bus = s.bus := by
  unfold State.closeWindow
  split <;> rfl

@[simp] theorem State.endSecond_bus (s : State) : s.endSecond.bus = s.bus :=
  State.endSecond_induction (P := fun u => u.bus = s.bus) (fun u p h => (u.expire_bus p).trans h)
    (fun u p h => (u.endQuarantine_bus p).trans h) (fun u h => u.closeWindow_bus.trans h) rfl

@[simp] theorem State.lapseRunOut_bus (s : State) (p : Pool) : (s.lapseRunOut p).bus = s.bus := by
  unfold State.lapseRunOut
  split
  · exact s.lapse_bus p _
  · rfl

@[simp] theorem State.probeRunOut_bus (s : State) (p : Pool) : (s.probeRunOut p).bus = s.bus := by
  unfold State.probeRunOut
  split
  · exact s.probeUnanswered_bus p
  · rfl

@[simp] theorem State.endMillisecond_bus (s : State) : s.endMillisecond.bus = s.bus :=
  State.endMillisecond_induction (P := fun u => u.bus = s.bus) (fun u p h => (u.lapseRunOut_bus p).trans h)
    (fun u p h => (u.probeRunOut_bus p).trans h) rfl

@[simp] theorem State.millisecond_bus (s : State) : s.millisecond.bus = s.bus := by
  unfold State.millisecond
  split
  · simp
  · rfl

@[simp] theorem State.startProbeTimer_bus (s : State) (p : Pool) : (s.startProbeTimer p).bus = s.bus := by
  unfold State.startProbeTimer
  split <;> rfl

@[simp] theorem State.conflictOn_bus (s : State) (p : Pool) : (s.conflictOn p).bus = s.bus := by
  unfold State.conflictOn
  dsimp only
  split
  · split <;> simp
  · rfl

@[simp] theorem State.snoop_bus (s : State) (p : Pool) : (s.snoop p).bus = s.bus := by
  unfold State.snoop
  split
  · split <;> rfl
  · split <;> rfl
  · split
    · exact s.conflictOn_bus p
    · rfl

@[simp] theorem State.clearMarks_bus (s : State) (chosen : List Pool) : (s.clearMarks chosen).bus = s.bus := by
  simp [State.clearMarks]

@[simp] theorem State.rewriteOutcome_bus (s : State) (r : Rewrite) (o : RewriteOutcome) :
    (s.rewriteOutcome r o).bus = s.bus := by
  rw [State.rewriteOutcome_eq]
  split <;> simp

/-! ### Places filled -/

/-- Messages are put behind the others of the queue, and nothing else of the bus engine changes. Where `n` places besides those
occupied and reserved are left, the eight are not exceeded (R112, R113). -/
def Fills (n : Nat) (s t : State) : Prop :=
  ∃ ms : List Message, t.bus = { s.bus with queue := s.bus.queue ++ ms } ∧
    (s.bus.queue.length + s.bus.reserved + n ≤ 8 → s.bus.queue.length + ms.length + s.bus.reserved ≤ 8)

theorem fills_of_bus (n : Nat) {s t : State} (h : t.bus = s.bus) : Fills n s t :=
  ⟨[], by rw [h, List.append_nil], fun hn => by simp only [List.length_nil]; omega⟩

theorem fills_enqueue (s : State) (m : Message) : Fills 1 s (s.enqueue m) :=
  ⟨[m], rfl, fun hn => by simp only [List.length_singleton]; omega⟩

/-- What fills from a state with the same bus engine. -/
theorem Fills.of_bus {n : Nat} {s t u : State} (h : Fills n t u) (hb : t.bus = s.bus) : Fills n s u := by
  unfold Fills
  rw [← hb]
  exact h

theorem Fills.trans {n : Nat} {s t u : State} (h : Fills n s t) (h' : Fills 0 t u) : Fills n s u := by
  obtain ⟨ms, hb, hms⟩ := h
  obtain ⟨ns, hb', hns⟩ := h'
  have hr : t.bus.reserved = s.bus.reserved := by rw [hb]; rfl
  have hq : t.bus.queue = s.bus.queue ++ ms := by rw [hb]
  rw [hq, hr] at hns
  refine ⟨ms ++ ns, by rw [hb', hb, List.append_assoc], fun hn => ?_⟩
  have h1 := hms hn
  simp only [List.length_append] at hns ⊢
  omega

/-- The REFUSE of a cancelled offer takes a place that is neither occupied nor reserved (R39, R96, R113). -/
theorem fills_refuseRevoked (s : State) (t : Tag) : Fills 0 s (s.refuseRevoked t) := by
  unfold State.refuseRevoked
  split
  · rename_i h
    have hlt : s.bus.queue.length + s.bus.reserved < 8 := of_decide_eq_true h
    exact ⟨[_], rfl, fun _ => by simp only [List.length_singleton]; omega⟩
  · exact fills_of_bus 0 rfl

/-! ### Requests of nodes -/

theorem fills_repeatOffer (s : State) (p : Pool) : Fills 1 s (s.repeatOffer p) := by
  unfold State.repeatOffer
  split
  · split
    · exact fills_enqueue s _
    · exact fills_of_bus 1 rfl
  · exact fills_of_bus 1 rfl

/-- A JOIN is answered by one message at most (R24, R25, R32, R33). -/
theorem fills_join (s : State) (t : Tag) (cls h : Byte) : Fills 1 s (s.join t cls h) := by
  unfold State.join
  split
  · exact fills_enqueue s _
  · split
    · exact fills_repeatOffer s _
    · exact fills_enqueue s _
    · split
      · exact (fills_enqueue _ _).of_bus rfl
      · exact fills_enqueue s _

theorem fills_grantLease (s : State) (p : Pool) (t : Tag) (c : ClassId) : Fills 1 s (s.grantLease p t c) :=
  (fills_enqueue _ _).of_bus rfl

theorem fills_regrantLease (s : State) (p : Pool) (t : Tag) (c : ClassId) : Fills 1 s (s.regrantLease p t c) :=
  (fills_enqueue _ _).of_bus rfl

theorem fills_claimOffer (s : State) (t : Tag) (p : Pool) : Fills 1 s (s.claimOffer t p) := by
  unfold State.claimOffer
  split
  · exact fills_grantLease s p t _
  · exact fills_enqueue s _

theorem fills_claim (s : State) (t : Tag) (a : Byte) : Fills 1 s (s.claim t a) := by
  unfold State.claim
  split
  · exact fills_enqueue s _
  · split
    · split
      · exact fills_regrantLease s _ t _
      · exact fills_claimOffer s t _
    · exact fills_claimOffer s t _

/-- A RENEW is answered by a GRANT or a REFUSE (R54, R60). -/
theorem fills_renew (s : State) (p : Pool) (t : Tag) (cls : Byte) : Fills 1 s (s.renew p t cls) := by
  by_cases h : ∃ c k, classOfByte cls = some c ∧ RenewLine s p t c k
  · obtain ⟨c, k, hc, hline⟩ := h
    rw [State.renew_granted hc hline]
    split
    · exact fills_regrantLease s p t _
    · exact fills_grantLease s p t _
  · rw [State.renew_refused fun c k hc hline => h ⟨c, k, hc, hline⟩]
    exact fills_enqueue s _

/-! ### Requests of the host -/

theorem fills_revoke (s : State) (p : Pool) : Fills 0 s (s.revoke p).state := by
  unfold State.revoke
  split
  · exact fills_of_bus 0 (State.withdraw_bus _ p _)
  · exact fills_of_bus 0 (State.withdraw_bus _ p _)
  · exact (fills_refuseRevoked _ _).of_bus (State.withdraw_bus s p _)
  · exact fills_of_bus 0 (State.toFree_bus s p _ _)
  · exact fills_of_bus 0 rfl
  · exact fills_of_bus 0 rfl
  · exact fills_of_bus 0 rfl

theorem fills_ownRevoke (ps : List Byte) (s : State) : Fills 0 s (ownRevoke ps s).state := by
  unfold ownRevoke
  split
  · split
    · exact fills_revoke s _
    · exact fills_of_bus 0 rfl
  · exact fills_of_bus 0 rfl

theorem State.withhold_bus (s : State) (p : Pool) : (s.withhold p).state.bus = s.bus := by
  unfold State.withhold
  split
  · rfl
  · split <;> rfl

theorem State.unwithhold_bus (s : State) (p : Pool) : (s.unwithhold p).state.bus = s.bus := by
  unfold State.unwithhold
  split
  · exact s.toFree_bus p _ _
  · rfl

theorem ownWithhold_bus (ps : List Byte) (s : State) : (ownWithhold ps s).state.bus = s.bus := by
  unfold ownWithhold
  split
  · split
    · rfl
    · split
      · exact s.withhold_bus _
      · split
        · exact s.unwithhold_bus _
        · rfl
  · rfl

theorem ownLookupAddress_bus (ps : List Byte) (s : State) : (ownLookupAddress ps s).state.bus = s.bus := by
  unfold ownLookupAddress
  split
  · split
    · rfl
    · split
      · rfl
      · split <;> rfl
  · rfl

theorem ownLookupTag_bus (ps : List Byte) (s : State) : (ownLookupTag ps s).state.bus = s.bus := by
  unfold ownLookupTag
  split
  · dsimp only
    split
    · rfl
    · split <;> rfl
  · rfl

theorem ownFreeList_bus (ps : List Byte) (s : State) : (ownFreeList ps s).state.bus = s.bus := by
  unfold ownFreeList
  split
  · split <;> rfl
  · rfl

theorem ownAcknowledge_bus (ps : List Byte) (s : State) : (ownAcknowledge ps s).state.bus = s.bus := by
  unfold ownAcknowledge
  split <;> rfl

theorem ownEnable_bus (ps : List Byte) (s : State) : (ownEnable ps s).state.bus = s.bus := by
  unfold ownEnable
  split <;> rfl

theorem ownClassSet_bus (ps : List Byte) (s : State) : (ownClassSet ps s).state.bus = s.bus := by
  unfold ownClassSet
  split
  · split
    · split <;> rfl
    · rfl
  · rfl

theorem ownClassGet_bus (ps : List Byte) (s : State) : (ownClassGet ps s).state.bus = s.bus := by
  unfold ownClassGet
  split
  · split <;> rfl
  · rfl

theorem ownTimingSet_bus (ps : List Byte) (s : State) : (ownTimingSet ps s).state.bus = s.bus := by
  unfold ownTimingSet
  split
  · dsimp only
    split <;> rfl
  · rfl

theorem ownBindingRead_bus (ps : List Byte) (s : State) : (ownBindingRead ps s).state.bus = s.bus := by
  unfold ownBindingRead
  split
  · split <;> rfl
  · rfl

theorem State.markIfNewlyPinned_bus (s : State) (a : Pool) (b : Bool) : (s.markIfNewlyPinned a b).bus = s.bus := by
  unfold State.markIfNewlyPinned
  split <;> rfl

/-- Of the early effects on an address only the cancelled offer sends a message (R132). -/
theorem fills_earlyEffect (s : State) (t : Tag) (a : Pool) (b : Bool) : Fills 0 s (s.earlyEffect t a b) := by
  have mark : Fills 0 s (s.markIfNewlyPinned a b) := fills_of_bus 0 (s.markIfNewlyPinned_bus a b)
  unfold State.earlyEffect
  split
  · exact fills_of_bus 0 rfl
  · exact fills_of_bus 0 rfl
  · exact mark
  · exact mark
  · split
    · exact mark
    · exact (fills_refuseRevoked _ _).of_bus rfl
  · split
    · exact mark
    · exact fills_of_bus 0 rfl
  · split
    · exact mark
    · exact fills_of_bus 0 rfl

theorem fills_moveAway (s : State) (t : Tag) (a : Pool) : Fills 0 s (s.moveAway t a) := by
  unfold State.moveAway
  split
  · exact fills_of_bus 0 rfl
  · split
    · exact (fills_refuseRevoked _ _).of_bus (s.withdraw_bus _ _)
    · exact fills_of_bus 0 (State.withdraw_bus _ _ _)

theorem fills_acceptBind (s : State) (k : BindSlot) (b : BindParams) (target : SectorId) :
    Fills 0 s (s.acceptBind k b target) := by
  rw [State.acceptBind_eq]
  have early := fills_earlyEffect (s.withStore (s.boundStore k b target)) b.tag b.addr (s.store.pinned b.addr)
  exact (early.of_bus (State.withStore_bus s _)).trans (fills_moveAway _ b.tag b.addr)

theorem fills_ownBind (ps : List Byte) (s : State) : Fills 0 s (ownBind ps s).state := by
  unfold ownBind
  split
  · rename_i b _
    obtain ⟨st, d, h, -⟩ | ⟨k, target, -, -, -, -, h⟩ := s.bind_cases b
    · rw [h]
      exact fills_of_bus 0 rfl
    · rw [h]
      exact fills_acceptBind s k b target
  · exact fills_of_bus 0 rfl

theorem ownUnbind_bus (ps : List Byte) (s : State) : (ownUnbind ps s).state.bus = s.bus := by
  unfold ownUnbind
  split
  · obtain ⟨st, d, h, -⟩ | ⟨k, b, target, -, -, h⟩ := s.unbind_cases (tagOfBytes ps)
    · rw [h]
    · rw [h]
      rfl
  · rfl

end Sys2Proof.Machine
end

section
/-! PROOFS. O55: the laws of the bus engine, command by command. -/

namespace Sys2Proof.Machine

open Sys2Proof.Safety

/-! ### The laws in parts -/

/-- The laws of the queue and of the current message, without what is being sent and without the watch. -/
def Loaded (b : BusEngine) : Prop :=
  b.queue.length + b.reserved ≤ 8 ∧ (∀ n, b.current = some ⟨.head, n⟩ → b.queue ≠ []) ∧
    ∀ c, b.current = some c → c.attempts < 8

theorem Loaded.places {b : BusEngine} (h : Loaded b) : b.queue.length + b.reserved ≤ 8 := h.1

/-- What is being sent is the current message (R114, R116). -/
def SendsCurrent (b : BusEngine) : Prop :=
  ∀ bytes, b.engine = .sending bytes false → ∃ m, b.currentMessage = some m ∧ bytes = m.bytes

/-- The watch is stopped exactly in FAULT (R118). -/
def Watched (b : BusEngine) : Prop := b.watch = .stopped ↔ b.engine = .fault

theorem busLaws_iff {s : State} : BusLaws s ↔ Loaded s.bus ∧ SendsCurrent s.bus ∧ Watched s.bus := by
  constructor
  · rintro ⟨hplaces, hhead, hattempts, hsends, hwatch⟩
    exact ⟨⟨hplaces, hhead, hattempts⟩, hsends, hwatch⟩
  · rintro ⟨⟨hplaces, hhead, hattempts⟩, hsends, hwatch⟩
    exact ⟨hplaces, hhead, hattempts, hsends, hwatch⟩

theorem busLaws_congr {s t : State} (h : t.bus = s.bus) (hs : BusLaws s) : BusLaws t := by
  rw [busLaws_iff, h]
  exact busLaws_iff.1 hs

/-- Fewer reservations keep every law. -/
theorem busLaws_of_reports {s t : State} {rs : List Report} (hb : t.bus = { s.bus with reports := rs })
    (hr : rs.countP Report.holdsPlace ≤ s.bus.reserved) (hs : BusLaws s) : BusLaws t := by
  obtain ⟨⟨hplaces, hhead, hattempts⟩, hsends, hwatch⟩ := busLaws_iff.1 hs
  rw [busLaws_iff, hb]
  exact ⟨⟨(Nat.add_le_add_left hr _).trans hplaces, hhead, hattempts⟩, hsends, hwatch⟩

theorem currentMessage_of_none {b : BusEngine} (h : b.current = none) : b.currentMessage = none := by
  unfold BusEngine.currentMessage
  rw [h]

/-- A message at the tail leaves the current message where it stands (R112, R114). -/
theorem currentMessage_append {b : BusEngine} {m : Message} (h : b.currentMessage = some m) (ms : List Message) :
    ({ b with queue := b.queue ++ ms } : BusEngine).currentMessage = some m := by
  unfold BusEngine.currentMessage at h ⊢
  split at h
  · rename_i hc
    simp only [hc, List.head?_append, h, Option.some_or]
  · rename_i hc
    simp only [hc, h]
  · cases h

/-- Messages at the tail within the eight places leave the current message where it stands (R112, R114). -/
theorem Fills.busLaws {n : Nat} {s t : State} (h : Fills n s t) (hn : s.bus.queue.length + s.bus.reserved + n ≤ 8)
    (hs : BusLaws s) : BusLaws t := by
  obtain ⟨ms, hb, hms⟩ := h
  obtain ⟨⟨-, hhead, hattempts⟩, hsends, hwatch⟩ := busLaws_iff.1 hs
  rw [busLaws_iff, hb]
  refine ⟨⟨?_, fun n hc => List.append_ne_nil_of_left_ne_nil (hhead n hc) ms, hattempts⟩, fun bytes he => ?_, hwatch⟩
  · have hle := hms hn
    rw [← List.length_append] at hle
    exact hle
  · obtain ⟨m, hm, hbytes⟩ := hsends bytes he
    exact ⟨m, currentMessage_append hm ms, hbytes⟩

/-! ### The transceiver -/

/-- A state of the transceiver outside FAULT in which no own message is on its way to its slot. -/
def Engine.parked : Engine → Bool
  | .idle _ => true
  | .receiving _ => true
  | .sending _ slotPassed => slotPassed
  | .fault => false

theorem watch_started {s : State} (h : Watched s.bus) {e : Engine} (he : s.bus.engine = e) (hne : e ≠ .fault) :
    s.bus.watch ≠ .stopped := fun hw => hne (he ▸ h.1 hw)

theorem watched_setEngine {s : State} {e : Engine} (hw : s.bus.watch ≠ .stopped) (he : e ≠ .fault) :
    Watched (s.setEngine e).bus := ⟨fun h => absurd h hw, fun h => absurd h he⟩

theorem Loaded.setEngine {s : State} (h : Loaded s.bus) (e : Engine) : Loaded (s.setEngine e).bus := h

/-- With the queue and the current message in order, the transceiver may be parked. -/
theorem busLaws_parked {s : State} (h : Loaded s.bus) (hw : s.bus.watch ≠ .stopped) {e : Engine} (he : e.parked = true) :
    BusLaws (s.setEngine e) := by
  refine busLaws_iff.2 ⟨h.setEngine e, ?_, watched_setEngine hw ?_⟩
  · rintro bytes rfl
    cases he
  · rintro rfl
    cases he

/-- FAULT stops the watch, and nothing is sent in it (R118). -/
theorem busLaws_enterFault {s : State} (h : Loaded s.bus) : BusLaws s.enterFault :=
  busLaws_iff.2 ⟨h, nofun, iff_of_true rfl rfl⟩

/-! ### The current message and its outcome -/

theorem BusEngine.reserved_eq (b : BusEngine) : b.reserved = b.reports.countP Report.holdsPlace := rfl

/-- A report that holds no place leaves the reservations (R108). -/
theorem countP_append_outcome (rs : List Report) (m : Message) (acked : Bool) :
    (rs ++ [Report.outcome m acked]).countP Report.holdsPlace = rs.countP Report.holdsPlace := by
  rw [List.countP_append]
  rfl

theorem loaded_outcome {s : State} (h : Loaded s.bus) (acked : Bool) : Loaded (s.outcome acked).bus := by
  have hplaces := h.places
  unfold State.outcome
  split
  · exact ⟨hplaces, nofun, nofun⟩
  · refine ⟨?_, nofun, nofun⟩
    rw [BusEngine.reserved_eq, State.withBus_bus, countP_append_outcome]
    dsimp only
    split
    · have htail : s.bus.queue.tail.length ≤ s.bus.queue.length := by simp
      exact (Nat.add_le_add_right htail _).trans hplaces
    · exact hplaces

theorem loaded_countAttempt {s : State} (h : Loaded s.bus) : Loaded s.countAttempt.bus := by
  have ⟨hplaces, hhead, _⟩ := h
  unfold State.countAttempt
  split
  · exact h
  · rename_i c hc
    split
    · rename_i hlt
      refine ⟨hplaces, fun n hn => ?_, fun d hd => ?_⟩
      · obtain ⟨source, k⟩ := c
        cases hn
        exact hhead k hc
      · cases hd
        exact hlt
    · exact loaded_outcome h false

theorem State.outcome_watch (s : State) (acked : Bool) : (s.outcome acked).bus.watch = s.bus.watch :=
  (Prod.mk.inj (congrArg Outside.transceiver (s.outside_outcome acked))).2

theorem State.countAttempt_watch (s : State) : s.countAttempt.bus.watch = s.bus.watch :=
  (Prod.mk.inj (congrArg Outside.transceiver s.outside_countAttempt)).2

/-- A notice becomes current with no attempt counted, or nothing changes (R115). -/
theorem State.collectNotice_bus (s : State) (p : Pool) : (s.collectNotice p).bus = s.bus ∨
    ∃ m, (s.collectNotice p).bus = { s.bus with current := some ⟨.notice m, 0⟩ } := by
  unfold State.collectNotice
  dsimp only
  split
  · exact .inr ⟨_, rfl⟩
  · split
    · exact .inr ⟨_, rfl⟩
    · exact .inl rfl

/-- A choice is made only where there is no current message, and then of a message in its place with no attempt counted
(R114). -/
theorem State.chooseCurrent_bus (s : State) : s.chooseCurrent.bus = s.bus ∨ s.bus.current = none ∧
    ∃ source, s.chooseCurrent.bus = { s.bus with current := some ⟨source, 0⟩ } ∧ (source = .head → s.bus.queue ≠ []) := by
  unfold State.chooseCurrent
  split
  · exact .inl rfl
  · rename_i hc
    split
    · rename_i hq
      exact .inr ⟨hc, .head, rfl, fun _ => by rw [hq]; nofun⟩
    · split
      · rename_i p _
        exact (s.collectNotice_bus p).imp_right fun ⟨m, hm⟩ => ⟨hc, .notice m, hm, nofun⟩
      · exact .inl rfl

theorem busLaws_chooseCurrent {s : State} (hs : BusLaws s) : BusLaws s.chooseCurrent := by
  obtain hb | ⟨hc, source, hb, hsource⟩ := s.chooseCurrent_bus
  · exact busLaws_congr hb hs
  · obtain ⟨hload, hsends, hwatch⟩ := busLaws_iff.1 hs
    rw [busLaws_iff, hb]
    refine ⟨⟨hload.places, fun n hn => ?_, fun c h => ?_⟩, fun bytes he => ?_, hwatch⟩
    · cases hn
      exact hsource rfl
    · cases h
      exact Nat.zero_lt_succ 7
    · obtain ⟨m, hm, -⟩ := hsends bytes he
      simp [currentMessage_of_none hc] at hm

/-! ### Transactions received -/

/-- What the bus engine passes on has a place kept for it, if it needs one (R107, R108). -/
theorem loaded_report {s : State} (h : Loaded s.bus) {r : Report} (hr : r.holdsPlace = true → s.bus.hasPlace = true) :
    Loaded (s.report r).bus := by
  obtain ⟨hplaces, hhead, hattempts⟩ := h
  refine ⟨?_, hhead, hattempts⟩
  simp only [State.report_bus_queue, State.report_bus_reports, BusEngine.reserved_eq, List.countP_append, List.countP_singleton]
  split
  · have hlt : s.bus.queue.length + s.bus.reserved < 8 := of_decide_eq_true (hr ‹_›)
    rw [BusEngine.reserved_eq] at hlt
    omega
  · exact hplaces

/-- An accepted request has a place, or needs none (R107). -/
theorem State.accepts_hasPlace {s : State} {src kind : Byte} {payload : List Byte} {r : Request}
    (h : s.accepts src kind payload = some r) (hr : r.needsPlace = true) : s.bus.hasPlace = true := by
  unfold State.accepts at h
  split at h
  · split at h
    · rename_i hc
      cases h
      rw [hr] at hc
      simp only [Bool.and_eq_true] at hc
      exact hc.2
    · cases h
  · cases h

theorem busLaws_hear {s : State} (h : Loaded s.bus) (hw : s.bus.watch ≠ .stopped) (dest src kind : Byte)
    (payload : List Byte) : BusLaws (s.hear dest src kind payload) := by
  have hbus : (if src = Config.authority then s.raise .rival else s).bus = s.bus := by split <;> rfl
  unfold State.hear
  dsimp only
  generalize (if src = Config.authority then s.raise .rival else s) = u at hbus
  rw [← hbus] at h hw
  have nothing : BusLaws (u.setEngine (.receiving (.slotPassed false))) := busLaws_parked h hw rfl
  split
  · split
    · rename_i r hr
      exact busLaws_parked (loaded_report (r := .request src r) h (State.accepts_hasPlace hr)) hw rfl
    · exact nothing
  · split
    · exact busLaws_parked (loaded_report h (by nofun)) hw rfl
    · exact nothing

theorem busLaws_receive {s : State} (hs : BusLaws s) (hw : s.bus.watch ≠ .stopped) (bytes : List Byte) :
    BusLaws (s.receive bytes) := by
  have h := (busLaws_iff.1 hs).1
  unfold State.receive
  split
  · split
    · exact busLaws_parked h hw rfl
    · split
      · split
        · exact busLaws_hear h hw _ _ _ _
        · exact busLaws_parked h hw rfl
      · exact hs
  · exact hs

/-! ### When an event is taken -/

/-- Every state that a result answers keeps the laws of the bus engine. -/
def KeepsBusLaws (s : State) (r : Result) : Prop := BusLaws s → ∀ t, r = .next t → BusLaws t

theorem keeps_absent (s : State) : KeepsBusLaws s (.next s) := by
  rintro hs _ ⟨⟩
  exact hs

theorem keeps_whenRunning {f : State → State} (hf : ∀ u, BusLaws u → BusLaws (f u)) (s : State) :
    KeepsBusLaws s (whenRunning f s) := by
  intro hs t ht
  obtain ⟨-, rfl⟩ | ⟨-, rfl⟩ := whenRunning_next ht
  · exact hs
  · exact hf s hs

theorem keeps_whenReady {f : State → State} (hf : ∀ u, (f u).bus = u.bus) (s : State) : KeepsBusLaws s (whenReady f s) := by
  intro hs t ht
  obtain ⟨-, rfl⟩ | ⟨-, rfl⟩ := whenReady_next ht
  · exact hs
  · exact busLaws_congr (hf s) hs

/-- The report that is taken is the oldest. -/
theorem reports_of_takeReport {s u : State} {w : Report → Bool} (h : s.takeReport w = some u) :
    ∃ r rest, s.bus.reports = r :: rest ∧ w r = true ∧ u = taken s rest := by
  unfold State.takeReport at h
  split at h
  · cases h
  · rename_i r rest hr
    split at h
    · cases h
      exact ⟨r, rest, hr, ‹_›, rfl⟩
    · cases h

/-- The places that a report has reserved. -/
def Report.places (r : Report) : Nat := if r.holdsPlace then 1 else 0

/-- A report that is taken leaves its place (R108). -/
theorem reserved_taken {s : State} {r : Report} {rest : List Report} (h : s.bus.reports = r :: rest) :
    (taken s rest).bus.reserved + r.places = s.bus.reserved := by
  rw [BusEngine.reserved_eq, BusEngine.reserved_eq, h, List.countP_cons]
  rfl

theorem busLaws_taken {s : State} {r : Report} {rest : List Report} (h : s.bus.reports = r :: rest) (hs : BusLaws s) :
    BusLaws (taken s rest) :=
  busLaws_of_reports rfl (Nat.le_of_add_right_le (reserved_taken h).le) hs

/-- The answer to a request of a node goes into the place that its report leaves (R108, R113). -/
theorem keeps_takeRequest {r : Report} {f : State → State} (hf : ∀ u, Fills r.places u (f u)) (s : State) :
    KeepsBusLaws s (takeRequest r f s) := by
  intro hs t ht
  obtain ⟨-, rfl⟩ | ⟨-, rfl⟩ := whenReady_next ht
  · exact hs
  · split
    · rename_i u hu
      obtain ⟨x, rest, hx, hw, rfl⟩ := reports_of_takeReport hu
      obtain rfl : x = r := by simpa using hw
      refine (hf _).busLaws ?_ (busLaws_taken hx hs)
      have hplaces := (busLaws_iff.1 hs).1.places
      rw [← reserved_taken hx] at hplaces
      exact (Nat.add_assoc _ _ _).trans_le hplaces
    · exact hs

theorem keeps_takeNews {w : Report → Bool} {f : State → State} (hf : ∀ u, (f u).bus = u.bus) (s : State) :
    KeepsBusLaws s (takeNews w f s) := by
  refine keeps_whenRunning (fun u hu => ?_) s
  split
  · rename_i v hv
    obtain ⟨r, rest, hr, -, rfl⟩ := reports_of_takeReport hv
    have htaken := busLaws_taken hr hu
    split
    · exact busLaws_congr (hf _) htaken
    · exact htaken
  · exact hu

/-- A request of the host fills free places at most. -/
theorem keeps_serve {code : RequestCode} {ps : List Byte} {own : State → Answer} (hf : ∀ u, Fills 0 u (own u).state)
    (s : State) : KeepsBusLaws s (serve code ps own s) := by
  intro hs t ht
  obtain rfl | ⟨-, rfl⟩ := serve_next ht
  · exact hs
  · exact busLaws_congr rfl ((hf s).busLaws (busLaws_iff.1 hs).1.places hs)

theorem keeps_serve_bus {code : RequestCode} {ps : List Byte} {own : State → Answer} (hf : ∀ u, (own u).state.bus = u.bus)
    (s : State) : KeepsBusLaws s (serve code ps own s) :=
  keeps_serve (fun u => fills_of_bus 0 (hf u)) s

theorem withoutParams_bus {ps : List Byte} {own : State → Answer} (hf : ∀ u, (own u).state.bus = u.bus) (s : State) :
    (withoutParams ps own s).state.bus = s.bus := by
  unfold withoutParams
  split
  · exact hf s
  · rfl

/-! ### Events of the bus engine -/

/-- An event that parks a transceiver which is not in FAULT. -/
theorem busLaws_parks {s u : State} (hs : BusLaws s) {e e' : Engine} (he : s.bus.engine = e) (hne : e ≠ .fault)
    (hu : Loaded s.bus → Loaded u.bus) (hw : u.bus.watch = s.bus.watch) (hp : e'.parked = true) :
    BusLaws (u.setEngine e') := by
  obtain ⟨hload, -, hwatch⟩ := busLaws_iff.1 hs
  exact busLaws_parked (hu hload) (hw ▸ watch_started hwatch he hne) hp

theorem busLaws_setEngine {s : State} (hs : BusLaws s) {e e' : Engine} (he : s.bus.engine = e) (hne : e ≠ .fault)
    (hp : e'.parked = true) : BusLaws (s.setEngine e') :=
  busLaws_parks hs he hne id rfl hp

theorem busLaws_brokenOff {s : State} (hs : BusLaws s) {e e' : Engine} (he : s.bus.engine = e) (hne : e ≠ .fault)
    (hp : e'.parked = true) : BusLaws (s.brokenOff e') :=
  busLaws_parks hs he hne loaded_countAttempt s.countAttempt_watch hp

theorem keeps_currentMessageChoice (s : State) : KeepsBusLaws s (execCurrentMessageChoice s) := by
  refine keeps_whenRunning (fun u hu => ?_) s
  split
  · exact hu
  · exact busLaws_chooseCurrent hu

/-- What an own START sends is the current message (R104, R114). -/
theorem keeps_ownStart (s : State) : KeepsBusLaws s (execOwnStart s) := by
  refine keeps_whenRunning (fun u hu => ?_) s
  split
  · rename_i he
    split
    · rename_i m hm
      obtain ⟨hload, -, hwatch⟩ := busLaws_iff.1 (busLaws_chooseCurrent hu)
      have hidle : u.chooseCurrent.bus.engine = .idle .gap :=
        ((Prod.mk.inj (congrArg Outside.transceiver u.outside_chooseCurrent)).1).trans he
      refine busLaws_iff.2 ⟨hload.setEngine _, ?_, watched_setEngine (watch_started hwatch hidle nofun) nofun⟩
      rintro bytes ⟨⟩
      exact ⟨m, hm, rfl⟩
    · exact hu
  · exact hu

theorem keeps_arbitrationLost (bit : Nat) (s : State) : KeepsBusLaws s (execArbitrationLost bit s) := by
  refine keeps_whenRunning (fun u hu => ?_) s
  split
  · split
    · exact busLaws_setEngine hu ‹_› (by nofun) rfl
    · exact hu
  · exact hu

theorem keeps_ownTransmissionAck (s : State) : KeepsBusLaws s (execOwnTransmissionAck s) := by
  refine keeps_whenRunning (fun u hu => ?_) s
  split
  · exact busLaws_parks hu ‹_› (by nofun) (fun h => loaded_outcome h true) (u.outcome_watch true) rfl
  · exact hu

theorem keeps_attempt (r : AttemptResult) (s : State) : KeepsBusLaws s (execAttempt r s) := by
  refine keeps_whenRunning (fun u hu => ?_) s
  split
  · cases r <;> exact busLaws_brokenOff hu ‹_› (by nofun) rfl
  · exact hu

theorem keeps_busStartByOther (s : State) : KeepsBusLaws s (execBusStartByOther s) := by
  refine keeps_whenRunning (fun u hu => ?_) s
  split
  · exact hu
  · exact busLaws_setEngine hu ‹_› (by nofun) rfl
  · exact busLaws_setEngine hu ‹_› (by nofun) rfl
  · exact busLaws_setEngine hu ‹_› (by nofun) rfl
  · exact busLaws_brokenOff hu ‹_› (by nofun) rfl
  · exact hu
  · exact hu

theorem keeps_busStop (s : State) : KeepsBusLaws s (execBusStop s) := by
  refine keeps_whenRunning (fun u hu => ?_) s
  split
  · exact hu
  · exact hu
  · exact busLaws_setEngine hu ‹_› (by nofun) rfl
  · exact busLaws_setEngine hu ‹_› (by nofun) rfl
  · exact busLaws_brokenOff hu ‹_› (by nofun) rfl
  · exact busLaws_setEngine hu ‹_› (by nofun) rfl
  · exact hu

theorem keeps_busIdleGap (s : State) : KeepsBusLaws s (execBusIdleGap s) := by
  refine keeps_whenRunning (fun u hu => ?_) s
  split
  · exact busLaws_setEngine hu ‹_› (by nofun) rfl
  · exact busLaws_setEngine hu ‹_› (by nofun) rfl
  · exact hu
  · exact hu

theorem Engine.parked_afterBreak (b : Breaker) : (engineAfterBreak b).parked = true := by cases b <;> rfl

theorem keeps_brokenTransaction (b : Breaker) (s : State) : KeepsBusLaws s (execBrokenTransaction b s) := by
  refine keeps_whenRunning (fun u hu => ?_) s
  split
  · exact busLaws_setEngine hu ‹_› (by nofun) (Engine.parked_afterBreak b)
  · exact busLaws_setEngine hu ‹_› (by nofun) (Engine.parked_afterBreak b)
  · exact hu

theorem keeps_stuckBus (s : State) : KeepsBusLaws s (execStuckBus s) := by
  refine keeps_whenRunning (fun u hu => ?_) s
  have hload := (busLaws_iff.1 hu).1
  split
  · exact hu
  · split
    · exact busLaws_enterFault (loaded_countAttempt hload)
    · exact busLaws_enterFault hload
    · exact busLaws_enterFault hload
    · exact busLaws_enterFault hload
    · exact hu

theorem keeps_faultExit (s : State) : KeepsBusLaws s (execFaultExit s) := by
  refine keeps_whenRunning (fun u hu => ?_) s
  split
  · obtain ⟨hplaces, hhead, hattempts⟩ := (busLaws_iff.1 hu).1
    exact busLaws_iff.2 ⟨⟨hplaces, hhead, hattempts⟩, nofun, iff_of_false nofun nofun⟩
  · exact hu

theorem keeps_transactionReceived (bytes : List Byte) (s : State) : KeepsBusLaws s (execTransactionReceived bytes s) := by
  refine keeps_whenRunning (fun u hu => ?_) s
  split
  · rename_i seen he
    split
    · exact busLaws_receive hu (watch_started (busLaws_iff.1 hu).2.2 he nofun) bytes
    · exact hu
  · exact hu

/-! ### Resets, and the end of the scan -/

/-- A bus engine with nothing queued, current or reserved, IDLE with the watch started (R121, R122). -/
theorem busLaws_empty {s : State} {q : Quiet} {n : Nat} (he : s.bus.engine = .idle q) (hq : s.bus.queue = [])
    (hc : s.bus.current = none) (hr : s.bus.reserved = 0) (hw : s.bus.watch = .started n) : BusLaws s := by
  refine busLaws_iff.2 ⟨⟨by simp [hq, hr], by simp [hc], by simp [hc]⟩, fun bytes h => ?_, ?_⟩
  · simp [he] at h
  · exact iff_of_false (by rw [hw]; nofun) (by rw [he]; nofun)

theorem rebuild_hardReset {spd : Bool} {cut : FlashCut} {s t : State} (h : execHardReset spd cut s = .next t) :
    Rebuild s t := by
  cases h
  exact .lost _ _ nofun

theorem rebuild_powerLoss {cut : FlashCut} {s t : State} (h : execPowerLoss cut s = .next t) : Rebuild s t := by
  cases h
  split
  · exact .absent
  · exact .lost _ _ nofun

theorem rebuild_hardResetEnd {s t : State} (h : execHardResetEnd s = .next t) : Rebuild s t := by
  cases h
  split
  · exact .began ‹_›
  · exact .absent

theorem Rebuild.busLaws {s t : State} (h : Rebuild s t) (hs : BusLaws s) : BusLaws t := by
  cases h with
  | absent => exact hs
  | lost fast cut _ => exact busLaws_empty rfl rfl rfl rfl rfl
  | began _ => exact busLaws_congr rfl hs
  | ended o _ _ _ => exact busLaws_of_reports (rs := []) rfl (Nat.zero_le _) hs
  | restarted _ => exact busLaws_empty rfl rfl rfl (reserved_restarted _ _ _) rfl
  | refused _ => exact busLaws_congr rfl hs

/-! ### Events that leave the bus engine alone -/

theorem keeps_whenRunning_bus {f : State → State} (hf : ∀ u, (f u).bus = u.bus) (s : State) :
    KeepsBusLaws s (whenRunning f s) :=
  keeps_whenRunning (fun u hu => busLaws_congr (hf u) hu) s

theorem keeps_leaseClockTick (s : State) : KeepsBusLaws s (execLeaseClockTick s) := by
  refine keeps_whenReady (fun u => ?_) s
  rw [State.withLease_bus, State.endSecond_bus]

theorem keeps_scanSectorErase (reads : Sector) (s : State) : KeepsBusLaws s (execScanSectorErase reads s) := by
  refine keeps_whenRunning_bus (fun u => ?_) s
  split <;> rfl

theorem keeps_scanRepair (image : Sector) (mark : Bool) (erase retry : Sector) (s : State) :
    KeepsBusLaws s (execScanRepair image mark erase retry s) := by
  refine keeps_whenRunning_bus (fun u => ?_) s
  split <;> rfl

theorem keeps_imageProgram (reads : Sector) (s : State) : KeepsBusLaws s (execImageProgram reads s) := by
  refine keeps_whenRunning_bus (fun u => ?_) s
  split
  · split <;> rfl
  · rfl

theorem keeps_validMark (reads : Bool) (s : State) : KeepsBusLaws s (execValidMark reads s) := by
  refine keeps_whenRunning_bus (fun u => ?_) s
  split
  · split
    · split
      · dsimp only
        split
        · rfl
        · exact State.rewriteOutcome_bus _ _ _
      · rfl
    · rfl
  · rfl

theorem keeps_targetErase (reads : Sector) (s : State) : KeepsBusLaws s (execTargetErase reads s) := by
  refine keeps_whenRunning_bus (fun u => ?_) s
  split
  · split
    · exact State.rewriteOutcome_bus _ _ _
    · rfl
  · rfl

theorem keeps_supersededErase (reads : Sector) (s : State) : KeepsBusLaws s (execSupersededErase reads s) := by
  refine keeps_whenRunning_bus (fun u => ?_) s
  split
  · split
    · split
      · exact State.rewriteOutcome_bus _ _ _
      · split
        · exact State.rewriteOutcome_bus _ _ _
        · rfl
    · rfl
  · rfl

theorem State.dispatch_bus (s : State) (v : Verdict) : (s.dispatch v).bus = s.bus := by cases v <;> rfl

theorem keeps_hselNFall (hsck : Bool) (s : State) : KeepsBusLaws s (execHselNFall hsck s) := by
  rintro hs t ⟨⟩
  refine busLaws_congr ?_ hs
  split
  · rfl
  · split <;> rfl

theorem keeps_hselNRise (bytes : List Byte) (edges : Fin 8) (s : State) : KeepsBusLaws s (execHselNRise bytes edges s) := by
  rintro hs t ⟨⟩
  refine busLaws_congr ?_ hs
  dsimp only
  split
  · rfl
  · split
    · exact State.dispatch_bus _ _
    · rfl

/-! ### Requests and reports of nodes, and requests of the host -/

/-- Every request but a RELEASE keeps a place for its answer (R107, R108). -/
theorem keeps_request {src : Byte} {r : Request} {f : State → State} (hr : r.needsPlace = true)
    (hf : ∀ u, Fills 1 u (f u)) (s : State) : KeepsBusLaws s (takeRequest (.request src r) f s) := by
  have hplaces : (Report.request src r).places = 1 := if_pos hr
  exact keeps_takeRequest (fun u => hplaces ▸ hf u) s

/-- A RELEASE is not answered (R69, R107). -/
theorem keeps_release (p : Pool) (t : Tag) (s : State) : KeepsBusLaws s (execRelease p t s) := by
  refine keeps_takeRequest (fun u => fills_of_bus _ ?_) s
  split
  · split
    · exact u.withdraw_bus p t
    · rfl
  · split
    · exact u.withdraw_bus p t
    · rfl
  · rfl

theorem keeps_offerCompletion (t : Tag) (p : Pool) (s : State) : KeepsBusLaws s (execOfferCompletion t p s) := by
  refine keeps_takeNews (fun u => ?_) s
  split <;> rfl

theorem keeps_offerDrop (t : Tag) (p : Pool) (s : State) : KeepsBusLaws s (execOfferDrop t p s) := by
  refine keeps_takeNews (fun u => ?_) s
  split
  · split
    · exact u.lapse_bus p _
    · rfl
  · rfl

theorem keeps_probeCompletion (p : Pool) (t : Tag) (s : State) : KeepsBusLaws s (execProbeCompletion p t s) := by
  refine keeps_takeNews (fun u => ?_) s
  split
  · exact u.startProbeTimer_bus p
  · rfl

theorem keeps_probeDrop (p : Pool) (t : Tag) (s : State) : KeepsBusLaws s (execProbeDrop p t s) := by
  refine keeps_takeNews (fun u => ?_) s
  split
  · exact u.probeUnanswered_bus p
  · rfl

theorem keeps_evictOutcome (p : Pool) (s : State) : KeepsBusLaws s (execEvictOutcome p s) := by
  refine keeps_takeNews (fun u => ?_) s
  split <;> rfl

theorem keeps_lookupAddress (ps : List Byte) (s : State) : KeepsBusLaws s (execLookupAddress ps s) := by
  unfold execLookupAddress
  split
  · exact keeps_absent s
  · exact keeps_serve_bus (ownLookupAddress_bus ps) s

theorem keeps_lookupAddressClear (ps : List Byte) (s : State) : KeepsBusLaws s (execLookupAddressClear ps s) := by
  unfold execLookupAddressClear
  split
  · exact keeps_absent s
  · exact keeps_serve_bus (ownLookupAddress_bus ps) s

theorem keeps_withholdOn (ps : List Byte) (s : State) : KeepsBusLaws s (execWithholdOn ps s) := by
  unfold execWithholdOn
  split
  · exact keeps_absent s
  · exact keeps_serve_bus (ownWithhold_bus ps) s

theorem keeps_withholdOff (ps : List Byte) (s : State) : KeepsBusLaws s (execWithholdOff ps s) := by
  unfold execWithholdOff
  split
  · exact keeps_absent s
  · exact keeps_serve_bus (ownWithhold_bus ps) s

/-! ### O55: every step -/

/-- Every command keeps the laws of the bus engine. -/
theorem exec_keepsBusLaws (c : Instr) (s : State) : KeepsBusLaws s (exec c s) := by
  have rebuilt : (∀ t, exec c s = .next t → Rebuild s t) → KeepsBusLaws s (exec c s) :=
    fun h hs t ht => (h t ht).busLaws hs
  cases c with
  | hardReset spd cut => exact rebuilt fun t => rebuild_hardReset
  | powerLoss cut => exact rebuilt fun t => rebuild_powerLoss
  | hardResetEnd => exact rebuilt fun t => rebuild_hardResetEnd
  | scanEnd => exact rebuilt fun t => rebuild_scanEnd
  | restart ps sent outbid => exact rebuilt fun t => rebuild_restart
  | scanSectorErase reads => exact keeps_scanSectorErase reads s
  | scanRepair image mark erase retry => exact keeps_scanRepair image mark erase retry s
  | imageProgram reads => exact keeps_imageProgram reads s
  | validMark reads => exact keeps_validMark reads s
  | targetErase reads => exact keeps_targetErase reads s
  | supersededErase reads => exact keeps_supersededErase reads s
  | leaseClockTick => exact keeps_leaseClockTick s
  | expiry p => exact keeps_whenReady (fun u => u.expire_bus p) s
  | endOfQuarantine p => exact keeps_whenReady (fun u => u.endQuarantine_bus p) s
  | adoptionWindowClose => exact keeps_whenReady (fun u => u.closeWindow_bus) s
  | offerTimeout p => exact keeps_whenReady (fun u => u.lapseRunOut_bus p) s
  | probeTimeout p => exact keeps_whenReady (fun u => u.probeRunOut_bus p) s
  | busStartByOther => exact keeps_busStartByOther s
  | ownStart => exact keeps_ownStart s
  | currentMessageChoice => exact keeps_currentMessageChoice s
  | arbitrationLost bit => exact keeps_arbitrationLost bit s
  | transactionReceived bytes => exact keeps_transactionReceived bytes s
  | brokenTransaction b => exact keeps_brokenTransaction b s
  | busStop => exact keeps_busStop s
  | busIdleGap => exact keeps_busIdleGap s
  | ownTransmissionAck => exact keeps_ownTransmissionAck s
  | attempt r => exact keeps_attempt r s
  | stuckBus => exact keeps_stuckBus s
  | faultExit => exact keeps_faultExit s
  | join t cls hint => exact keeps_request rfl (fun u => fills_join u t cls hint) s
  | claim t a => exact keeps_request rfl (fun u => fills_claim u t a) s
  | renew src t cls => exact keeps_request rfl (fun u => fills_renew u src t cls) s
  | release src t => exact keeps_release src t s
  | resolve src q => exact keeps_request rfl (fun u => fills_enqueue u _) s
  | whois src a => exact keeps_request rfl (fun u => fills_enqueue u _) s
  | snoopReport p => exact keeps_takeNews (fun u => u.snoop_bus p) s
  | offerCompletion t p => exact keeps_offerCompletion t p s
  | offerDrop t p => exact keeps_offerDrop t p s
  | probeCompletion p t => exact keeps_probeCompletion p t s
  | probeDrop p t => exact keeps_probeDrop p t s
  | evictOutcome p => exact keeps_evictOutcome p s
  | replyOutcome => exact keeps_takeNews (fun _ => rfl) s
  | hselNFall hsck => exact keeps_hselNFall hsck s
  | hselNRise bytes edges => exact keeps_hselNRise bytes edges s
  | nop _ => exact keeps_serve_bus (withoutParams_bus fun _ => rfl) s
  | ident _ => exact keeps_serve_bus (withoutParams_bus fun _ => rfl) s
  | status _ => exact keeps_serve_bus (withoutParams_bus fun _ => rfl) s
  | acknowledge ps => exact keeps_serve_bus (ownAcknowledge_bus ps) s
  | enable ps => exact keeps_serve_bus (ownEnable_bus ps) s
  | lookupAddress ps => exact keeps_lookupAddress ps s
  | lookupAddressClear ps => exact keeps_lookupAddressClear ps s
  | lookupTag ps => exact keeps_serve_bus (ownLookupTag_bus ps) s
  | scan ps => exact keeps_serve_bus (withoutParams_bus fun u => u.clearMarks_bus _) s
  | freeList ps => exact keeps_serve_bus (ownFreeList_bus ps) s
  | revoke ps => exact keeps_serve (fills_ownRevoke ps) s
  | withholdOn ps => exact keeps_withholdOn ps s
  | withholdOff ps => exact keeps_withholdOff ps s
  | classSet ps => exact keeps_serve_bus (ownClassSet_bus ps) s
  | classGet ps => exact keeps_serve_bus (ownClassGet_bus ps) s
  | timingSet ps => exact keeps_serve_bus (ownTimingSet_bus ps) s
  | timingGet _ => exact keeps_serve_bus (withoutParams_bus fun _ => rfl) s
  | bind ps => exact keeps_serve (fills_ownBind ps) s
  | unbind ps => exact keeps_serve_bus (ownUnbind_bus ps) s
  | bindingRead ps => exact keeps_serve_bus (ownBindingRead_bus ps) s

/-- Settles O55: the millisecond does not reach the bus engine, and every command keeps its laws. -/
theorem busLawsAreKept : Obligations.BusLawsAreKept := by
  unfold Obligations.BusLawsAreKept
  intro s t hs
  exact step_keeps (P := BusLaws) (fun u q => busLaws_congr rfl) (fun u => busLaws_congr u.millisecond_bus)
    (fun c u v hu => exec_keepsBusLaws c u hu v) hs

end Sys2Proof.Machine
end

section
/-! PROOFS. Requests that were not handed over (O5); the part's own START, arbitration and the outcome of a transmission (O26,
O27); the stuck bus and conditions on the bus (O29, O28). -/

namespace Sys2Proof.Machine

open Sys2Proof.Safety

/-! ### O5: a request reaches its owner once -/

/-- A host command names the request that its owner must find in the port (R157; log 2). -/
theorem exec_not_asked {c : Instr} {code : RequestCode} {ps : List Byte} {s : State} (hc : hostRequest c = some (code, ps))
    (h : s.port.buffer ≠ .pending code ps) : exec c s = .next s := by
  have unserved : ∀ own, serve code ps own s = .next s := fun own => serve_not_asked own h
  have optional : ∀ (b : Bool) own, (if b then .next s else serve code ps own s) = (.next s : Result) := fun b own => by
    rw [unserved own, ite_self]
  cases c <;> cases hc
  case lookupAddress => exact optional _ _
  case lookupAddressClear => exact optional _ _
  case withholdOn => exact optional _ _
  case withholdOff => exact optional _ _
  all_goals exact unserved _

/-- A node request names the report that the lease engine must find as the oldest (R109; log 2). -/
theorem exec_not_reported {c : Instr} {r : Report} {s : State} (hc : nodeReport c = some r)
    (h : s.bus.reports.head? ≠ some r) : exec c s = .next s := by
  cases c <;> cases hc <;> exact takeRequest_not_reported _ h

/-- Settles O5: what the port or the bus engine has not handed over is not taken. -/
theorem requestsAreTakenOnlyWhereHandedOver : Obligations.RequestsAreTakenOnlyWhereHandedOver := by
  unfold Obligations.RequestsAreTakenOnlyWhereHandedOver
  exact fun c s => ⟨fun code ps => exec_not_asked, fun r => exec_not_reported⟩

/-! ### The meanings of the events of the bus engine, by command -/

theorem exec_arbitrationLost_eq (bit : Nat) (s : State) : exec (.arbitrationLost bit) s = execArbitrationLost bit s := rfl
theorem exec_ownTransmissionAck_eq (s : State) : exec .ownTransmissionAck s = execOwnTransmissionAck s := rfl
theorem exec_attempt_eq (r : AttemptResult) (s : State) : exec (.attempt r) s = execAttempt r s := rfl
theorem exec_stuckBus_eq (s : State) : exec .stuckBus s = execStuckBus s := rfl
theorem exec_busStartByOther_eq (s : State) : exec .busStartByOther s = execBusStartByOther s := rfl
theorem exec_busStop_eq (s : State) : exec .busStop s = execBusStop s := rfl
theorem exec_busIdleGap_eq (s : State) : exec .busIdleGap s = execBusIdleGap s := rfl
theorem exec_brokenTransaction_eq (b : Breaker) (s : State) : exec (.brokenTransaction b) s = execBrokenTransaction b s := rfl
theorem exec_transactionReceived_eq (bytes : List Byte) (s : State) :
    exec (.transactionReceived bytes) s = execTransactionReceived bytes s := rfl

/-! ### O26: the own START -/

theorem State.setEngine_eq_inEngine (s : State) (e : Engine) : s.setEngine e = inEngine s e := rfl

/-- An own START sends the current message, chosen in the event where there is none (R102, R104, R114). -/
theorem exec_ownStart_sends {s : State} (hs : s.power = .running) (he : s.bus.engine = .idle .gap) {m : Message}
    (hm : s.chooseCurrent.bus.currentMessage = some m) :
    exec .ownStart s = .next (inEngine s.chooseCurrent (.sending m.bytes false)) := by
  refine (whenRunning_running _ hs).trans ?_
  simp only [he, if_true, hm]
  rfl

theorem exec_ownStart_nothing {s : State} (hs : s.power = .running)
    (h : s.bus.engine ≠ .idle .gap ∨ s.chooseCurrent.bus.currentMessage = none) : exec .ownStart s = .next s := by
  refine (whenRunning_running _ hs).trans (congrArg _ ?_)
  obtain h | h := h
  · exact if_neg h
  · simp only [h, ite_self]

theorem current_of_currentMessage {b : BusEngine} {m : Message} (h : b.currentMessage = some m) : b.current ≠ none :=
  fun hc => by simp [currentMessage_of_none hc] at h

/-- Arbitration is lost at a bit of the own transmission sent as 1, and at no other (R105). -/
theorem exec_arbitrationLost {s : State} (hs : s.power = .running) {bytes : List Byte}
    (he : s.bus.engine = .sending bytes false) (bit : Nat) :
    exec (.arbitrationLost bit) s = .next (if (bitsOf bytes)[bit]? = some true then
      inEngine s (.receiving (.listening ((bitsOf bytes).take bit ++ [false]))) else s) := by
  simp only [exec_arbitrationLost_eq, execArbitrationLost, whenRunning_running _ hs, he, State.setEngine_eq_inEngine]

/-- Settles O26: by whether there is a current message, the choice of one, and the bit. -/
theorem ownStartAndArbitration : Obligations.OwnStartAndArbitration := by
  unfold Obligations.OwnStartAndArbitration
  intro s hs
  refine ⟨fun he => ?start, fun he => exec_ownStart_nothing hs (.inl he), fun bytes bit he => ?arbitration⟩
  case start =>
    have hchoice := exec_currentMessageChoice hs (by rw [he]; nofun)
    refine ⟨fun m hm => ?_, fun u m _ hu hm => ?_, fun hc hu => ?_⟩
    · have hnone : s.chooseCurrent = s := s.chooseCurrent_current (current_of_currentMessage hm)
      have hsend := exec_ownStart_sends hs he (hnone.symm ▸ hm)
      rwa [hnone] at hsend
    · obtain rfl : s.chooseCurrent = u := Host.Outcome.next.inj (hchoice.symm.trans hu)
      exact exec_ownStart_sends hs he hm
    · have hnone : s.chooseCurrent = s := Host.Outcome.next.inj (hchoice.symm.trans hu)
      exact exec_ownStart_nothing hs (.inr (by rw [hnone, currentMessage_of_none hc]))
  case arbitration =>
    rw [exec_arbitrationLost hs he]
    exact ⟨fun h => by rw [if_pos h], fun h => by rw [if_neg h]⟩

/-! ### O27: the end of an own transmission -/

/-- The outcome of the current message, in the words of Safety.lean (R117). -/
theorem State.outcome_eq_ended {s : State} {m : Message} (hm : s.bus.currentMessage = some m) (acked : Bool) :
    s.outcome acked = ended s m acked := by
  unfold State.outcome
  rw [hm]
  rfl

/-- One attempt of the current message, in the words of Safety.lean (R116). -/
theorem State.countAttempt_eq_attempted {s : State} {c : Current} {m : Message} (hc : s.bus.current = some c)
    (hm : s.bus.currentMessage = some m) : s.countAttempt = attempted s c m := by
  unfold State.countAttempt
  rw [hc, State.outcome_eq_ended hm]
  rfl

/-- Settles O27: an ACK is the outcome, anything else an attempt. -/
theorem outcomeOfAnOwnTransmission : Obligations.OutcomeOfAnOwnTransmission := by
  unfold Obligations.OutcomeOfAnOwnTransmission
  intro s bytes c m hs he hc hm
  have hended := State.outcome_eq_ended hm true
  have hcounted := State.countAttempt_eq_attempted hc hm
  refine ⟨?ack, ?nack, ?start, ?stop⟩
  case ack =>
    simp only [exec_ownTransmissionAck_eq, execOwnTransmissionAck, whenRunning_running _ hs, he, hended,
      State.setEngine_eq_inEngine]
  all_goals
    simp only [exec_attempt_eq, execAttempt, whenRunning_running _ hs, he, State.brokenOff, hcounted,
      State.setEngine_eq_inEngine]

/-! ### O29: the stuck bus -/

theorem State.enterFault_eq (s : State) :
    s.enterFault = flagged (inFault s) { s.att.latched with busFault := true } := rfl

/-- The attempt of a broken transmission leaves the flags. -/
theorem State.countAttempt_att (s : State) : s.countAttempt.att = s.att := congrArg Outside.att s.outside_countAttempt

/-- A started watch brings every state but FAULT into it, with an attempt for a transmission on its way (R118). -/
theorem exec_stuckBus {s : State} (hs : s.power = .running) (hw : WatchLaw s) (he : s.bus.engine ≠ .fault) :
    exec .stuckBus s = .next (match s.bus.engine with
      | .sending _ false => s.countAttempt.enterFault
      | _ => s.enterFault) := by
  have hwatch := watch_started hw rfl he
  simp only [exec_stuckBus_eq, execStuckBus, whenRunning_running _ hs]
  cases h : s.bus.watch with
  | stopped => exact absurd h hwatch
  | started low =>
    cases hE : s.bus.engine with
    | idle q => rfl
    | receiving rx => rfl
    | sending bytes slotPassed => cases slotPassed <;> rfl
    | fault => exact absurd hE he

theorem exec_faultExit {s : State} (hs : s.power = .running) : exec .faultExit s = .next (if s.bus.engine = .fault then
    { s with bus := { s.bus with engine := .idle .settling, watch := .started 0 } } else s) :=
  whenRunning_running _ hs

/-- Settles O29: by the state of the transceiver, with the watch stopped exactly in FAULT. -/
theorem stuckBusAndFaultExit : Obligations.StuckBusAndFaultExit := by
  unfold Obligations.StuckBusAndFaultExit
  intro s hs hw
  refine ⟨fun he => ?quiet, fun bytes c m he hc hm => ?sending, fun he => ⟨?fault, ?exit⟩, fun he => ?absent⟩
  case quiet =>
    obtain ⟨q, he⟩ | ⟨rx, he⟩ | ⟨bytes, he⟩ := he
    all_goals
      rw [exec_stuckBus hs hw (by rw [he]; nofun), he]
      rfl
  case sending =>
    rw [exec_stuckBus hs hw (by rw [he]; nofun), he]
    dsimp only
    rw [State.enterFault_eq, State.countAttempt_att, State.countAttempt_eq_attempted hc hm]
  case fault =>
    simp only [exec_stuckBus_eq, execStuckBus, whenRunning_running _ hs, hw.2 he]
  case exit => rw [exec_faultExit hs, if_pos he]
  case absent => rw [exec_faultExit hs, if_neg he]

/-! ### O28: conditions on the bus -/

/-- Settles O28: by the state of the transceiver. -/
theorem conditionsOnTheBus : Obligations.ConditionsOnTheBus := by
  unfold Obligations.ConditionsOnTheBus
  intro s hs
  have running := fun f => whenRunning_running f hs
  refine ⟨?start, ?stop, ?deaf, ?broken, ?gap, ?noGap, ?transaction⟩
  case start =>
    rintro (⟨q, hq, he⟩ | ⟨rx, he⟩)
    · cases q with
      | settling => exact absurd rfl hq
      | stopped => simp only [exec_busStartByOther_eq, execBusStartByOther, running, he, State.setEngine_eq_inEngine]
      | gap => simp only [exec_busStartByOther_eq, execBusStartByOther, running, he, State.setEngine_eq_inEngine]
    · simp only [exec_busStartByOther_eq, execBusStartByOther, running, he, State.setEngine_eq_inEngine]
  case stop =>
    rintro (he | ⟨rx, he⟩ | ⟨bytes, he⟩) <;>
      simp only [exec_busStop_eq, execBusStop, running, he, State.setEngine_eq_inEngine]
  case deaf =>
    rintro (he | he) <;>
      simp only [exec_busStartByOther_eq, exec_busStop_eq, execBusStartByOther, execBusStop, running, he, and_self]
  case broken =>
    intro bytes he
    simp only [exec_busStartByOther_eq, exec_busStop_eq, exec_attempt_eq, execBusStartByOther, execBusStop,
      execAttempt, running, he, and_self]
  case gap =>
    rintro (⟨q, he⟩ | ⟨rx, he⟩) <;>
      simp only [exec_busIdleGap_eq, execBusIdleGap, running, he, State.setEngine_eq_inEngine]
  case noGap =>
    rintro (⟨bytes, b, he⟩ | he) <;> simp only [exec_busIdleGap_eq, execBusIdleGap, running, he]
  case transaction =>
    rintro (⟨seen, he⟩ | he) <;>
      simp only [exec_brokenTransaction_eq, execBrokenTransaction, running, he, engineAfterBreak,
        State.setEngine_eq_inEngine, and_self]

end Sys2Proof.Machine
end

section
/-! PROOFS. The check byte, the bytes of the messages, and the cut of a transmission by a Restart (O32). -/

namespace Sys2Proof.Machine

open Sys2Proof.Safety

/-! ### The check byte (R197) -/

/-- A shift of the check register loses nothing: where a 1 leaves it, the constant makes it odd. -/
theorem crcShift_eq_zero {r : Byte} : crcShift r = 0 ↔ r = 0 := by
  refine ⟨fun h => ?_, by rintro rfl; rfl⟩
  unfold crcShift at h
  split at h
  · have hodd := congrArg (BitVec.getLsbD · 0) h
    simp at hodd
  · rename_i hmsb
    have hlt : r.toNat < 128 := by simpa [BitVec.msb_eq_decide] using hmsb
    bv_omega

theorem crcByte_eq_zero {r b : Byte} : crcByte r b = 0 ↔ b = r := by
  simp only [crcByte, crcShift_eq_zero]
  rw [show (0 : Byte) = 0#8 from rfl, BitVec.xor_eq_zero_iff, eq_comm]

theorem crc8_concat (bs : List Byte) (b : Byte) : crc8 (bs ++ [b]) = crcByte (crc8 bs) b := by
  simp [crc8, List.foldl_append]

/-- A list followed by a byte runs the register to 0 exactly where the byte is its check byte. -/
theorem crc8_concat_eq_zero {bs : List Byte} {b : Byte} : crc8 (bs ++ [b]) = 0 ↔ b = crc8 bs := by
  rw [crc8_concat, crcByte_eq_zero]

theorem crc8_withCheck (bs : List Byte) : crc8 (withCheck bs) = 0 := crc8_concat_eq_zero.2 rfl

/-- The complement of the check byte is never the check byte (R122). -/
theorem crc8_complement (bs : List Byte) : crc8 (bs ++ [~~~ crc8 bs]) ≠ 0 := by
  rw [Ne, crc8_concat_eq_zero]
  intro h
  have hbit := congrArg (BitVec.getLsbD · 0) h
  simp at hbit

/-! ### The bytes of the messages (R120, R199) -/

/-- A message by its destination, kind, length and payload. -/
theorem Message.bytes_of_length {m : Message} {n : Nat} (h : m.payload.length = n) :
    m.bytes = withCheck ([m.dest, 0x01, m.kind, byteOf n] ++ m.payload) := by
  rw [Message.bytes, h]
  rfl

theorem Message.bytes_offer (t : Tag) (p : Pool) (c : ClassId) (m : Half) : (Message.offer t p c m).bytes =
    withCheck ([0x0F, 0x01, 0x21, 10] ++ tagBytes t ++ [poolByte p, byteOf c.val] ++ halfBytes m) :=
  Message.bytes_of_length rfl

theorem Message.bytes_grant (p : Pool) (t : Tag) (c : ClassId) (m : Half) : (Message.grant p t c m).bytes =
    withCheck ([poolByte p, 0x01, 0x22, 9] ++ tagBytes t ++ [byteOf c.val] ++ halfBytes m) :=
  Message.bytes_of_length rfl

theorem Message.bytes_refuse (d : Byte) (t : Tag) (r : RefuseReason) : (Message.refuse d t r).bytes =
    withCheck ([d, 0x01, 0x23, 7] ++ tagBytes t ++ [r.code]) :=
  Message.bytes_of_length rfl

theorem Message.bytes_probe (p : Pool) (t : Tag) : (Message.probe p t).bytes =
    withCheck ([poolByte p, 0x01, 0x24, 6] ++ tagBytes t) :=
  Message.bytes_of_length rfl

theorem Message.bytes_evict (p : Pool) (t : Tag) (r : EvictReason) : (Message.evict p t r).bytes =
    withCheck ([poolByte p, 0x01, 0x25, 7] ++ tagBytes t ++ [r.code]) :=
  Message.bytes_of_length rfl

theorem Message.bytes_answerResolve (d : Byte) (t : Tag) (r : ResolveResult) (a : Byte) : (Message.answerResolve d t r a).bytes =
    withCheck ([d, 0x01, 0x26, 8] ++ tagBytes t ++ [r.code, a]) :=
  Message.bytes_of_length rfl

theorem Message.bytes_answerWhois (d a : Byte) (k : Summary) (t : Tag) : (Message.answerWhois d a k t).bytes =
    withCheck ([d, 0x01, 0x26, 8, a, summaryCode k] ++ tagBytes t) :=
  Message.bytes_of_length rfl

/-- The state summaries and their codes (10.3). -/
theorem summaryCode_of_mem {k : Summary} {code : Byte} (h : (k, code) ∈ ([(some .free, 0), (some .offered, 1), (some .live, 2),
    (some .stale, 3), (some .quarantine, 4), (some .reserved, 5), (some .withheld, 6), (none, 7)] : List (Summary × Byte))) :
    summaryCode k = code := by
  have all : ∀ x ∈ ([(some .free, 0), (some .offered, 1), (some .live, 2), (some .stale, 3), (some .quarantine, 4),
      (some .reserved, 5), (some .withheld, 6), (none, 7)] : List (Summary × Byte)), summaryCode x.1 = x.2 := by decide
  exact all _ h

/-! ### The cut of a transmission (R122) -/

/-- Where a transmission is cut: short of the check byte or in it, with the bytes begun so far; or past the length byte and
before the check byte, with the payload filled up behind the bytes begun so far. -/
theorem cutOf_cases {frame : List Byte} {sent : Nat} (outbid : Bool) (h : sent < 8 * frame.length) :
    ∃ begun, frame.take (sent / 8) <+: begun ∧ begun.length = (sent + 7) / 8 ∧
      (¬ (32 ≤ sent ∧ sent ≤ 8 * (frame.length - 1)) ∧ cutOf frame sent outbid = ⟨begun, false, outbid⟩ ∨
        (32 ≤ sent ∧ sent ≤ 8 * (frame.length - 1)) ∧ cutOf frame sent outbid = cutPayload frame begun outbid) := by
  have hi : sent / 8 < frame.length := by omega
  unfold cutOf
  simp only [List.getElem?_eq_getElem hi]
  split
  · refine ⟨frame.take (sent / 8), List.prefix_rfl, by rw [List.length_take]; omega, ?_⟩
    split
    · exact .inl ⟨by omega, rfl⟩
    · exact .inr ⟨by omega, rfl⟩
  · refine ⟨frame.take (sent / 8) ++ [finishReleased frame[sent / 8] (sent % 8)], List.prefix_append _ _,
      by rw [List.length_append, List.length_take, List.length_singleton]; omega, ?_⟩
    split
    · exact .inl ⟨by omega, rfl⟩
    · exact .inr ⟨by omega, rfl⟩

/-- What begins with the first bytes of a frame agrees with it there. -/
theorem take_of_prefix {frame bytes : List Byte} {i : Nat} (hi : i ≤ frame.length) (h : frame.take i <+: bytes) :
    bytes.take i = frame.take i := by
  have heq := List.prefix_iff_eq_take.1 h
  rw [List.length_take_of_le hi] at heq
  exact heq.symm

/-- What a Restart leaves of a transmission that had not been sent whole is never good (R122). -/
theorem cutOf_spec {frame : List Byte} {sent : Nat} (outbid : Bool) (h : sent < 8 * frame.length) :
    let cut := cutOf frame sent outbid
    (cut.slot = true ↔ 32 ≤ sent ∧ sent ≤ 8 * (frame.length - 1)) ∧
    (cut.slot = true → cut.bytes.length = frame.length ∧ crc8 cut.bytes ≠ 0 ∧
      ∃ body, cut.bytes = body ++ [~~~ crc8 body]) ∧
    (cut.slot = false → cut.bytes.length = (sent + 7) / 8 ∧
      (cut.bytes.length < frame.length ∨ cut.bytes.length = frame.length ∧
        cut.bytes.take (frame.length - 1) = frame.take (frame.length - 1))) ∧
    cut.bytes.take (sent / 8) = frame.take (sent / 8) := by
  have hi : sent / 8 ≤ frame.length := by omega
  obtain ⟨begun, hprefix, hlen, ⟨hout, hcut⟩ | ⟨hin, hcut⟩⟩ := cutOf_cases outbid h
  · have htake := take_of_prefix hi hprefix
    rw [hcut]
    refine ⟨iff_of_false nofun hout, nofun, fun _ => ⟨hlen, ?_⟩, htake⟩
    by_cases hlast : begun.length < frame.length
    · exact .inl hlast
    · have hwhole : sent / 8 = frame.length - 1 := by omega
      exact .inr ⟨by dsimp only; omega, hwhole ▸ htake⟩
  · obtain ⟨body, hbody, hwhole, hfilled⟩ := cutPayload_spec frame begun outbid (by omega)
    rw [hcut, hfilled]
    refine ⟨iff_of_true rfl hin, fun _ => ⟨?_, crc8_complement body, body, rfl⟩, nofun, ?_⟩
    · rw [List.length_append, List.length_singleton, hwhole]
    · exact take_of_prefix hi ((hprefix.trans hbody).trans (List.prefix_append _ _))

/-- Settles O32: the register, the layouts, and the cut. -/
theorem checkByteDetectsAndRestartCutIsNeverGood : Obligations.CheckByteDetectsAndRestartCutIsNeverGood := by
  unfold Obligations.CheckByteDetectsAndRestartCutIsNeverGood
  refine ⟨fun bs b => crc8_concat_eq_zero, fun t p d a c m => ?messages, fun r => crc8_withCheck _,
    fun m sent outbid h => cutOf_spec outbid h⟩
  have refuse := Message.bytes_refuse d t
  have evict := Message.bytes_evict p t
  have answer := fun r => Message.bytes_answerResolve d t r a
  exact ⟨Message.bytes_offer t p c m, Message.bytes_grant p t c m, refuse _, refuse _, refuse _, refuse _, refuse _, refuse _,
    Message.bytes_probe p t, evict _, evict _, evict _, answer _, answer _, answer _, answer _,
    fun k code hk => summaryCode_of_mem hk ▸ Message.bytes_answerWhois d a k t⟩

end Sys2Proof.Machine
end

section
/-! PROOFS. What reads as a request and when it is accepted (O30); transactions to others, with a bad check byte, and over
length (O31). -/

namespace Sys2Proof.Machine

open Sys2Proof.Safety

/-! ### Tags, sources and kinds as bytes (R198) -/

theorem foldl_bytes_div (bs : List Byte) (m : Nat) :
    bs.foldl (fun n b => n * 256 + b.toNat) m / 256 ^ bs.length = m := by
  induction bs generalizing m with
  | nil => simp
  | cons b bs ih =>
    have hb := b.isLt
    rw [List.foldl_cons, List.length_cons, pow_succ, ← Nat.div_div_eq_div_mul, ih]
    omega

/-- Bytes written out again from the number that they spell. -/
theorem beBytes_foldl (bs : List Byte) (m : Nat) :
    beBytes bs.length (bs.foldl (fun n b => n * 256 + b.toNat) m) = bs := by
  induction bs generalizing m with
  | nil => rfl
  | cons b bs ih =>
    have hb := b.isLt
    rw [List.length_cons, beBytes, List.foldl_cons, foldl_bytes_div, ih]
    refine congrArg (· :: bs) (BitVec.eq_of_toNat_eq ?_)
    rw [BitVec.toNat_ofNat]
    omega

theorem tagBytes_tagOfBytes {bs : List Byte} (h : bs.length = 6) : tagBytes (tagOfBytes bs) = bs := by
  have hdiv := foldl_bytes_div bs 0
  have hlt : beNat bs < 2 ^ 48 := by
    rw [h] at hdiv
    unfold beNat
    omega
  rw [tagBytes, tagOfBytes, BitVec.toNat_ofNat, Nat.mod_eq_of_lt hlt, ← h]
  exact beBytes_foldl bs 0

/-- A payload of six bytes and more begins with a tag. -/
theorem payload_eq_tag_append {payload : List Byte} (h : 6 ≤ payload.length) :
    payload = tagBytes (tagOfBytes (payload.take 6)) ++ payload.drop 6 := by
  rw [tagBytes_tagOfBytes (List.length_take_of_le h), List.take_append_drop]

theorem take_tagBytes_append (t : Tag) (rest : List Byte) : (tagBytes t ++ rest).take 6 = tagBytes t :=
  List.take_left' (length_tagBytes t)

theorem take_tagBytes (t : Tag) : (tagBytes t).take 6 = tagBytes t := List.take_of_length_le (length_tagBytes t).le

theorem drop_tagBytes_append (t : Tag) (rest : List Byte) : (tagBytes t ++ rest).drop 6 = rest :=
  List.drop_left' (length_tagBytes t)

/-- A source with a pool address (R107). -/
theorem poolOfByte_isSome {src : Byte} : (poolOfByte src).isSome = true ↔ ∃ p, src = poolByte p := by
  rw [Option.isSome_iff_exists]
  constructor
  · rintro ⟨p, hp⟩
    exact ⟨p, poolByte_of_poolOfByte hp⟩
  · rintro ⟨p, rfl⟩
    exact ⟨p, poolOfByte_poolByte p⟩

theorem poolByte_ne_authority (p : Pool) : poolByte p ≠ Config.authority := fun hp => by
  have htoNat := congrArg BitVec.toNat hp
  rw [poolByte_toNat] at htoNat
  exact absurd htoNat (by simp [Config.authority])

/-! ### What reads as a request (R107 conditions 2 to 5) -/

section
variable (src : Byte) (payload : List Byte)

theorem requestOf_join : requestOf src 0x11 payload = match payload.drop 6 with
    | [c, h] => if src == Config.joinAddress && validTag (tagOfBytes (payload.take 6)) then
        some (.join (tagOfBytes (payload.take 6)) c h) else none
    | _ => none := by
  unfold requestOf
  generalize payload.drop 6 = rest
  rcases rest with _ | ⟨c, _ | ⟨h, _ | _⟩⟩ <;> rfl

theorem requestOf_claim : requestOf src 0x12 payload = match payload.drop 6 with
    | [a] => if src == Config.joinAddress && validTag (tagOfBytes (payload.take 6)) then
        some (.claim (tagOfBytes (payload.take 6)) a) else none
    | _ => none := by
  unfold requestOf
  generalize payload.drop 6 = rest
  rcases rest with _ | ⟨a, _ | _⟩ <;> rfl

theorem requestOf_renew : requestOf src 0x13 payload = match payload.drop 6 with
    | [c] => if (poolOfByte src).isSome && validTag (tagOfBytes (payload.take 6)) then
        some (.renew (tagOfBytes (payload.take 6)) c) else none
    | _ => none := by
  unfold requestOf
  generalize payload.drop 6 = rest
  rcases rest with _ | ⟨c, _ | _⟩ <;> rfl

/-- A payload of six bytes has nothing behind the tag. -/
theorem drop_six (h : payload.length = 6) : payload.drop 6 = [] := List.drop_of_length_le h.le

theorem requestOf_release : requestOf src 0x14 payload =
    if payload.length = 6 ∧ (poolOfByte src).isSome = true ∧ validTag (tagOfBytes (payload.take 6)) = true then
      some (.release (tagOfBytes (payload.take 6))) else none := by
  by_cases h : payload.length = 6
  · unfold requestOf
    rw [drop_six payload h]
    rfl
  · rw [if_neg (fun hc => h hc.1)]
    unfold requestOf
    generalize payload.drop 6 = rest
    rcases rest with _ | _
    · exact if_neg (fun hc => h hc.1)
    · rfl

theorem requestOf_resolve : requestOf src 0x15 payload =
    if payload.length = 6 ∧ decide (2 ≤ src.toNat ∧ src.toNat < 128) = true ∧
      validTag (tagOfBytes (payload.take 6)) = true then some (.resolve (tagOfBytes (payload.take 6))) else none := by
  by_cases h : payload.length = 6
  · unfold requestOf
    rw [drop_six payload h]
    rfl
  · rw [if_neg (fun hc => h hc.1)]
    unfold requestOf
    generalize payload.drop 6 = rest
    rcases rest with _ | _
    · exact if_neg (fun hc => h hc.1)
    · rfl

theorem requestOf_whois : requestOf src 0x16 payload = match payload with
    | [a] => if decide (2 ≤ src.toNat ∧ src.toNat < 128) = true then some (.whois a) else none
    | _ => none := by
  unfold requestOf
  rcases payload with _ | ⟨a, _ | ⟨b, rest⟩⟩
  · rfl
  · rfl
  · generalize (a :: b :: rest).drop 6 = behind
    rcases behind with _ | _ <;> rfl

/-- The six kinds of requests, and all others. -/
theorem kind_cases (kind : Byte) : kind = 0x11 ∨ kind = 0x12 ∨ kind = 0x13 ∨ kind = 0x14 ∨ kind = 0x15 ∨ kind = 0x16 ∨
    kind.toNat < 0x11 ∨ 0x16 < kind.toNat := by
  bv_omega

theorem requestOf_other {kind : Byte} (h : kind.toNat < 0x11 ∨ 0x16 < kind.toNat) : requestOf src kind payload = none := by
  unfold requestOf
  generalize kind.toNat = n at h ⊢
  obtain h | h := h
  · interval_cases n <;> rfl
  · obtain ⟨k, rfl⟩ := Nat.exists_eq_add_of_lt h
    rw [show 0x16 + k + 1 = k + 0x17 by omega]
    rfl
end

/-- The lines of the table of 5.5. -/
def ReadsAs (src kind : Byte) (payload : List Byte) (r : Request) : Prop :=
  (∃ t c h, kind = 0x11 ∧ payload = tagBytes t ++ [c, h] ∧ src = 0x0F ∧ validTag t = true ∧ r = .join t c h) ∨
  (∃ t a, kind = 0x12 ∧ payload = tagBytes t ++ [a] ∧ src = 0x0F ∧ validTag t = true ∧ r = .claim t a) ∨
  (∃ t c p, kind = 0x13 ∧ payload = tagBytes t ++ [c] ∧ src = poolByte p ∧ validTag t = true ∧ r = .renew t c) ∨
  (∃ t p, kind = 0x14 ∧ payload = tagBytes t ∧ src = poolByte p ∧ validTag t = true ∧ r = .release t) ∨
  (∃ t, kind = 0x15 ∧ payload = tagBytes t ∧ 2 ≤ src.toNat ∧ src.toNat < 128 ∧ validTag t = true ∧ r = .resolve t) ∨
  (∃ a, kind = 0x16 ∧ payload = [a] ∧ 2 ≤ src.toNat ∧ src.toNat < 128 ∧ r = .whois a)

/-- What reads as a request has the form of its line. -/
theorem readsAs_of_requestOf {src kind : Byte} {payload : List Byte} {r : Request}
    (h : requestOf src kind payload = some r) : ReadsAs src kind payload r := by
  have tagged : ∀ {rest}, payload.drop 6 = rest → 6 ≤ payload.length →
      payload = tagBytes (tagOfBytes (payload.take 6)) ++ rest := fun hd hl => hd ▸ payload_eq_tag_append hl
  have behind : ∀ {b : Byte} {rest}, payload.drop 6 = b :: rest → 6 ≤ payload.length := fun hd => by
    have hlen := congrArg List.length hd
    rw [List.length_drop, List.length_cons] at hlen
    omega
  obtain rfl | rfl | rfl | rfl | rfl | rfl | hk := kind_cases kind
  · rw [requestOf_join] at h
    split at h
    · rename_i c hint hd
      rw [Option.ite_none_right_eq_some, Bool.and_eq_true, beq_iff_eq] at h
      obtain ⟨⟨hsrc, htag⟩, ⟨⟩⟩ := h
      exact .inl ⟨_, c, hint, rfl, tagged hd (behind hd), hsrc, htag, rfl⟩
    · cases h
  · rw [requestOf_claim] at h
    split at h
    · rename_i a hd
      rw [Option.ite_none_right_eq_some, Bool.and_eq_true, beq_iff_eq] at h
      obtain ⟨⟨hsrc, htag⟩, ⟨⟩⟩ := h
      exact .inr (.inl ⟨_, a, rfl, tagged hd (behind hd), hsrc, htag, rfl⟩)
    · cases h
  · rw [requestOf_renew] at h
    split at h
    · rename_i c hd
      rw [Option.ite_none_right_eq_some, Bool.and_eq_true, poolOfByte_isSome] at h
      obtain ⟨⟨⟨p, hsrc⟩, htag⟩, ⟨⟩⟩ := h
      exact .inr (.inr (.inl ⟨_, c, p, rfl, tagged hd (behind hd), hsrc, htag, rfl⟩))
    · cases h
  · rw [requestOf_release, Option.ite_none_right_eq_some, poolOfByte_isSome] at h
    obtain ⟨⟨hlen, ⟨p, hsrc⟩, htag⟩, ⟨⟩⟩ := h
    have hpayload := (tagged (drop_six payload hlen) hlen.ge).trans (List.append_nil _)
    exact .inr (.inr (.inr (.inl ⟨_, p, rfl, hpayload, hsrc, htag, rfl⟩)))
  · rw [requestOf_resolve, Option.ite_none_right_eq_some, decide_eq_true_eq] at h
    obtain ⟨⟨hlen, ⟨hlow, hhigh⟩, htag⟩, ⟨⟩⟩ := h
    have hpayload := (tagged (drop_six payload hlen) hlen.ge).trans (List.append_nil _)
    exact .inr (.inr (.inr (.inr (.inl ⟨_, rfl, hpayload, hlow, hhigh, htag, rfl⟩))))
  · rw [requestOf_whois] at h
    split at h
    · rename_i a
      rw [Option.ite_none_right_eq_some, decide_eq_true_eq] at h
      obtain ⟨⟨hlow, hhigh⟩, ⟨⟩⟩ := h
      exact .inr (.inr (.inr (.inr (.inr ⟨a, rfl, rfl, hlow, hhigh, rfl⟩))))
    · cases h
  · rw [requestOf_other _ _ hk] at h
    cases h

/-- What has the form of a line reads as its request. -/
theorem requestOf_of_readsAs {src kind : Byte} {payload : List Byte} {r : Request} (h : ReadsAs src kind payload r) :
    requestOf src kind payload = some r := by
  obtain ⟨t, c, hint, rfl, rfl, rfl, htag, rfl⟩ | ⟨t, a, rfl, rfl, rfl, htag, rfl⟩ | ⟨t, c, p, rfl, rfl, rfl, htag, rfl⟩ |
    ⟨t, p, rfl, rfl, rfl, htag, rfl⟩ | ⟨t, rfl, rfl, hlow, hhigh, htag, rfl⟩ | ⟨a, rfl, rfl, hlow, hhigh, rfl⟩ := h
  · rw [requestOf_join, drop_tagBytes_append, take_tagBytes_append, tagOfBytes_tagBytes, htag]
    rfl
  · rw [requestOf_claim, drop_tagBytes_append, take_tagBytes_append, tagOfBytes_tagBytes, htag]
    rfl
  · rw [requestOf_renew, drop_tagBytes_append, take_tagBytes_append, tagOfBytes_tagBytes, htag, poolOfByte_poolByte]
    rfl
  · rw [requestOf_release, take_tagBytes, tagOfBytes_tagBytes, poolOfByte_poolByte]
    exact if_pos ⟨length_tagBytes t, rfl, htag⟩
  · rw [requestOf_resolve, take_tagBytes, tagOfBytes_tagBytes]
    exact if_pos ⟨length_tagBytes t, decide_eq_true ⟨hlow, hhigh⟩, htag⟩
  · rw [requestOf_whois]
    exact if_pos (decide_eq_true ⟨hlow, hhigh⟩)

theorem requestOf_iff {src kind : Byte} {payload : List Byte} {r : Request} :
    requestOf src kind payload = some r ↔ ReadsAs src kind payload r :=
  ⟨readsAs_of_requestOf, requestOf_of_readsAs⟩

/-- No request comes from the address of the part itself (R107). -/
theorem requestOf_authority {src kind : Byte} {payload : List Byte} {r : Request}
    (h : requestOf src kind payload = some r) : src ≠ Config.authority := by
  rintro rfl
  obtain ⟨t, c, hint, -, -, hsrc, -⟩ | ⟨t, a, -, -, hsrc, -⟩ | ⟨t, c, p, -, -, hsrc, -⟩ | ⟨t, p, -, -, hsrc, -⟩ |
    ⟨t, -, -, hlow, -⟩ | ⟨a, -, -, hlow, -⟩ := requestOf_iff.1 h
  · exact absurd hsrc (by decide)
  · exact absurd hsrc (by decide)
  · exact poolByte_ne_authority p hsrc.symm
  · exact poolByte_ne_authority p hsrc.symm
  · exact absurd hlow (by decide)
  · exact absurd hlow (by decide)

/-! ### Acceptance and hearing (R107 to R111) -/

theorem Request.needsPlace_iff {r : Request} : r.needsPlace = false ↔ ∃ t, r = .release t := by
  cases r <;> simp [Request.needsPlace]

/-- All conditions of R107 together. -/
theorem State.accepts_iff {s : State} {src kind : Byte} {payload : List Byte} {r : Request} :
    s.accepts src kind payload = some r ↔ requestOf src kind payload = some r ∧ s.lease.ready = true ∧
      ((∃ t, r = .release t) ∨ s.bus.queue.length + s.bus.reserved < 8) := by
  unfold State.accepts
  cases requestOf src kind payload with
  | none => simp
  | some x =>
    rw [Option.ite_none_right_eq_some, Option.some_inj, and_comm]
    refine and_congr_right ?_
    rintro rfl
    rw [Bool.and_eq_true, Bool.or_eq_true, Bool.not_eq_true', Request.needsPlace_iff]
    exact and_congr_right fun _ => or_congr_right decide_eq_true_iff

theorem State.accepts_eq_none {s : State} {src kind : Byte} {payload : List Byte}
    (h : requestOf src kind payload = none ∨ s.lease.ready = false ∨
      (8 ≤ s.bus.queue.length + s.bus.reserved ∧ ∀ t, requestOf src kind payload ≠ some (.release t))) :
    s.accepts src kind payload = none := by
  refine Option.eq_none_iff_forall_ne_some.2 fun r hr => ?_
  obtain ⟨hreads, hready, hplace⟩ := State.accepts_iff.1 hr
  obtain hnone | hnot | ⟨hfull, hrelease⟩ := h
  · simp [hnone] at hreads
  · simp [hnot] at hready
  · obtain ⟨t, rfl⟩ | hlt := hplace
    · exact hrelease t hreads
    · omega

/-- An accepted request is acknowledged and dispatched (R108). -/
theorem State.hear_accepted {s : State} {src kind : Byte} {payload : List Byte} {r : Request}
    (h : s.accepts src kind payload = some r) : s.hear Config.authority src kind payload =
      { s with bus := { s.bus with
        reports := s.bus.reports ++ [.request src r], engine := .receiving (.slotPassed true) } } := by
  unfold State.hear
  rw [if_neg (requestOf_authority (State.accepts_iff.1 h).1)]
  dsimp only
  rw [if_pos rfl, h]
  rfl

/-- The rival indication of a good transaction from source 0x01 (R111). -/
def State.rivalSeen (s : State) (src : Byte) : State :=
  if src = 0x01 then flagged s { s.att.latched with rival := true } else s

theorem State.rivalSeen_eq (s : State) (src : Byte) : (if src = Config.authority then s.raise .rival else s) = s.rivalSeen src :=
  rfl

/-- The acceptance does not read the flags. -/
theorem State.accepts_rivalSeen (s : State) (src kind : Byte) (payload : List Byte) :
    (s.rivalSeen src).accepts src kind payload = s.accepts src kind payload := by
  unfold State.rivalSeen
  split <;> rfl

/-- A transaction to the part that is not accepted (R107, R111). -/
theorem State.hear_unaccepted {s : State} {src kind : Byte} {payload : List Byte}
    (h : s.accepts src kind payload = none) : s.hear Config.authority src kind payload =
      inEngine (s.rivalSeen src) (.receiving (.slotPassed false)) := by
  unfold State.hear
  dsimp only
  rw [State.rivalSeen_eq, if_pos rfl, State.accepts_rivalSeen, h]
  rfl

/-- A transaction to another from a pool source is reported (R110). -/
theorem State.hear_snooped {s : State} {dest kind : Byte} (p : Pool) {payload : List Byte} (h : dest ≠ Config.authority) :
    s.hear dest (poolByte p) kind payload = { s with bus := { s.bus with
      reports := s.bus.reports ++ [.snoop p], engine := .receiving (.slotPassed false) } } := by
  unfold State.hear
  rw [if_neg (poolByte_ne_authority p)]
  dsimp only
  rw [if_neg h, poolOfByte_poolByte]
  rfl

/-- A transaction to another from no pool source (R110, R111). -/
theorem State.hear_foreign {s : State} {dest src kind : Byte} {payload : List Byte} (h : dest ≠ Config.authority)
    (hsrc : ∀ p, src ≠ poolByte p) : s.hear dest src kind payload =
      inEngine (s.rivalSeen src) (.receiving (.slotPassed false)) := by
  have hpool : poolOfByte src = none := Option.eq_none_iff_forall_ne_some.2 fun p hp => hsrc p (poolByte_of_poolOfByte hp)
  unfold State.hear
  dsimp only
  rw [State.rivalSeen_eq, if_neg h, hpool]
  rfl

/-! ### Reception -/

/-- Bytes that begin with the bits already seen are received (R105, R107). -/
theorem exec_transactionReceived {s : State} {seen : List Bool} {bytes : List Byte} (hs : s.power = .running)
    (he : s.bus.engine = .receiving (.listening seen)) (hseen : seen.isPrefixOf (bitsOf bytes) = true) :
    exec (.transactionReceived bytes) s = .next (s.receive bytes) := by
  simp only [exec_transactionReceived_eq, execTransactionReceived, whenRunning_running _ hs, he, hseen, if_true]

theorem toNat_byteOf_length {payload : List Byte} (h : payload.length ≤ 12) :
    (byteOf payload.length).toNat = payload.length := by
  rw [byteOf, BitVec.toNat_ofNat]
  omega

/-- A complete transaction is heard where its check byte is good, and has no effect otherwise (R101). -/
theorem State.receive_complete {s : State} {dest src kind check : Byte} {payload : List Byte} (h : payload.length ≤ 12) :
    s.receive ([dest, src, kind, byteOf payload.length] ++ payload ++ [check]) =
      if check = crc8 ([dest, src, kind, byteOf payload.length] ++ payload) then s.hear dest src kind payload
      else inEngine s (.receiving (.slotPassed false)) := by
  have hlen := toNat_byteOf_length h
  have hbytes : [dest, src, kind, byteOf payload.length] ++ payload ++ [check] =
      dest :: src :: kind :: byteOf payload.length :: (payload ++ [check]) := by simp
  simp only [← crc8_concat_eq_zero, hbytes]
  unfold State.receive
  dsimp only
  rw [if_neg (by rw [hlen]; exact Nat.not_lt.2 h), if_pos (by simp [hlen]), hlen, List.take_left]
  rfl

theorem State.receive_withCheck {s : State} {dest src kind : Byte} {payload : List Byte} (h : payload.length ≤ 12) :
    s.receive (withCheck ([dest, src, kind, byteOf payload.length] ++ payload)) = s.hear dest src kind payload :=
  (State.receive_complete h).trans (if_pos rfl)

/-- Past a length above 12 the bytes are not interpreted (R101). -/
theorem State.receive_overlong {s : State} {dest src kind n : Byte} (h : 12 < n.toNat) :
    s.receive [dest, src, kind, n] = inEngine s (.receiving .ignoring) := if_pos h

/-- Settles O30: the table of 5.5, and the acceptance. -/
theorem requestKindsAndAcceptance : Obligations.RequestKindsAndAcceptance := by
  unfold Obligations.RequestKindsAndAcceptance
  refine ⟨fun src kind payload r => requestOf_iff, ?_⟩
  intro s src kind payload seen hs he hlen bytes hseen
  have hexec : exec (.transactionReceived bytes) s = .next (s.hear Config.authority src kind payload) :=
    (exec_transactionReceived hs he hseen).trans (congrArg _ (State.receive_withCheck hlen))
  refine ⟨fun r hreads hready hplace => ?accepted, fun hnot => ?unaccepted⟩
  case accepted => rw [hexec, State.hear_accepted (State.accepts_iff.2 ⟨hreads, hready, hplace⟩)]
  case unaccepted =>
    rw [hexec, State.hear_unaccepted (State.accepts_eq_none hnot)]
    rfl

/-- Settles O31: by the source, the check byte and the length. -/
theorem foreignTraffic : Obligations.ForeignTraffic := by
  unfold Obligations.ForeignTraffic
  intro s dest src kind payload seen hs he head
  refine ⟨fun hdest hlen hseen => ?good, fun check hlen hcheck hseen => ?bad, fun n hn hseen => ?overlong⟩
  case good =>
    have hexec : exec (.transactionReceived (withCheck (head ++ payload))) s = .next (s.hear dest src kind payload) :=
      (exec_transactionReceived hs he hseen).trans (congrArg _ (State.receive_withCheck hlen))
    refine ⟨?_, fun hsrc => ?_⟩
    · rintro p rfl
      rw [hexec, State.hear_snooped p hdest]
    · rw [hexec, State.hear_foreign hdest hsrc]
      rfl
  case bad => rw [exec_transactionReceived hs he hseen, State.receive_complete hlen, if_neg hcheck]
  case overlong => rw [exec_transactionReceived hs he hseen, State.receive_overlong hn]

end Sys2Proof.Machine
end

section
/-! SUPPORT. What a read of a sector finds (R125), and the vectors of the sector map after one of their places is written. -/

namespace Sys2Proof.Machine

open Sys2Proof.Safety

/-- A vector after one of its places is written. -/
theorem getElem_set_fin {α : Type} {n : Nat} (v : Vector α n) (k j : Fin n) (x : α) :
    (v.set k x)[j] = if j = k then x else v[j] := by
  by_cases h : j = k
  · simp [h]
  · rw [if_neg h]
    exact Vector.getElem_set_ne k.isLt j.isLt (Fin.val_ne_of_ne (Ne.symm h))

/-! ### Valid, erased and partial sectors (R125) -/

theorem classOfByte_eq_some_iff {b : Byte} {c : ClassId} : classOfByte b = some c ↔ b = byteOf c.val := by
  constructor
  · intro h
    unfold classOfByte at h
    split at h
    · cases h
      exact (byteOf_toNat b).symm
    · cases h
  · rintro rfl
    exact classOfByte_byteOf c

theorem validImage_eq_some {x : Sector} {l : LogicalId} {q : Half} :
    validImage x = some (l, q) ↔ x.mark = true ∧ x.header = .written (byteOf l.val) q := by
  obtain ⟨header, mark, slots⟩ := x
  cases mark with
  | false => simp [validImage]
  | true =>
    cases header with
    | blank => simp [validImage]
    | unreadable => simp [validImage]
    | written b r => simp [validImage, classOfByte_eq_some_iff]

theorem validImage_of_unmarked {x : Sector} (h : x.mark = false) : validImage x = none := by
  unfold validImage
  rw [h]

@[simp] theorem validImage_programmed (l : LogicalId) (q : Half) (slots : Vector SlotCell 8) :
    validImage (programmed l q true slots) = some (l, q) := validImage_eq_some.2 ⟨rfl, rfl⟩

theorem ne_blank_of_validImage {x : Sector} {y : LogicalId × Half} (h : validImage x = some y) : x ≠ blankSector := by
  rintro rfl
  cases h

theorem classify_eq_erased {x : Sector} : classify x = .erased ↔ x = blankSector := by
  unfold classify
  split
  · simp [*]
  · split <;> simp [*]

theorem classify_eq_partially {x : Sector} : classify x = .partially ↔ x ≠ blankSector ∧ validImage x = none := by
  unfold classify
  split
  · simp [*]
  · rename_i hb
    split
    · rename_i hv
      simp [Option.isSome_iff_ne_none.1 hv]
    · rename_i hv
      simp [hb, Option.not_isSome_iff_eq_none.1 hv]

/-- A sector that an erase has left wrong reads as the same image, or as none, as before (R140, R146; log 10). -/
theorem validImage_eraseFailed (before reads : Sector) : validImage (eraseFailed before reads) = validImage before := by
  unfold eraseFailed
  split
  · rfl
  · rename_i h
    have hn : validImage before = none := by simpa using h
    rcases eraseLeft_cases before reads with hp | ⟨he, -⟩
    · rw [hn, (classify_eq_partially.1 hp).2]
    · rw [he]

/-! ### Sequence numbers (R126) -/

theorem newer_asymm {a b : Half} (h : newer a b = true) : newer b a = false := by
  simp only [newer, decide_eq_true_eq, decide_eq_false_iff_not] at h ⊢
  bv_omega

theorem newer_succ (q : Half) : newer (q + 1) q = true := by
  have h : q + 1 - q = 1 := by bv_omega
  rw [newer, h]
  rfl

end Sys2Proof.Machine
end

section
/-! PROOFS. The beginning of the start-up scan (O7): what is kept of each logical sector, and what is to be erased. -/

namespace Sys2Proof.Machine

open Sys2Proof.Safety

/-! ### The images of a logical sector -/

theorem mem_imagesOf {flash : Vector Sector 5} {l : LogicalId} {k : SectorId} {q : Half} :
    (k, q) ∈ imagesOf flash l ↔ validImage (flash[k]) = some (l, q) := by
  unfold imagesOf
  rw [List.mem_filterMap]
  constructor
  · rintro ⟨j, -, h⟩
    split at h
    · split at h
      · cases h
        simp_all
      · cases h
    · cases h
  · intro h
    refine ⟨k, List.mem_finRange k, ?_⟩
    rw [h]
    exact if_pos rfl

/-- The images stand in ascending order of their sectors. -/
theorem pairwise_imagesOf (flash : Vector Sector 5) (l : LogicalId) :
    (imagesOf flash l).Pairwise fun x y => x.1 < y.1 := by
  have fst : ∀ {k : SectorId} {x : SectorId × Half}, (match validImage (flash[k]) with
      | some (l', q) => if l' = l then some (k, q) else none
      | none => none) = some x → x.1 = k := by
    intro k x h
    split at h
    · split at h
      · cases h
        rfl
      · cases h
    · cases h
  unfold imagesOf
  rw [List.pairwise_filterMap]
  refine (List.pairwise_lt_finRange 5).imp fun hlt x hx y hy => ?_
  rwa [fst hx, fst hy]

/-- An image of a logical sector that is newer than every other (R146 step 4). -/
def Newest (flash : Vector Sector 5) (l : LogicalId) (k : SectorId) (q : Half) : Prop :=
  ∀ (j : SectorId) (r : Half), j ≠ k → validImage (flash[j]) = some (l, r) → newer q r = true

/-- No image of a logical sector is newer than every other (R146 step 5). -/
def NoneNewest (flash : Vector Sector 5) (l : LogicalId) : Prop :=
  ∀ (i : SectorId) (x : Half), validImage (flash[i]) = some (l, x) →
    ∃ (j : SectorId) (r : Half), j ≠ i ∧ validImage (flash[j]) = some (l, r) ∧ newer x r = false

theorem newest_iff_all {flash : Vector Sector 5} {l : LogicalId} {k : SectorId} {q : Half} :
    ((imagesOf flash l).all fun y => y.1 == k || newer q y.2) = true ↔ Newest flash l k q := by
  simp only [List.all_eq_true, Bool.or_eq_true, beq_iff_eq, Prod.forall, mem_imagesOf]
  exact ⟨fun h j r hj hr => (h j r hr).resolve_left hj, fun h j r hr => (em (j = k)).imp_right fun hj => h j r hj hr⟩

theorem newestOf_eq_none {flash : Vector Sector 5} {l : LogicalId} :
    newestOf (imagesOf flash l) = none ↔ NoneNewest flash l := by
  unfold newestOf
  rw [List.find?_eq_none]
  simp only [Prod.forall, mem_imagesOf, newest_iff_all]
  unfold Newest NoneNewest
  push Not
  simp only [ne_eq, Bool.not_eq_true]

/-- At most one image is newer than every other. -/
theorem newestOf_eq_some {flash : Vector Sector 5} {l : LogicalId} {k : SectorId} {q : Half} :
    newestOf (imagesOf flash l) = some (k, q) ↔ validImage (flash[k]) = some (l, q) ∧ Newest flash l k q := by
  have sound : ∀ {j : SectorId} {r : Half}, newestOf (imagesOf flash l) = some (j, r) →
      validImage (flash[j]) = some (l, r) ∧ Newest flash l j r := by
    intro j r h
    unfold newestOf at h
    have hall := List.find?_some h
    exact ⟨mem_imagesOf.1 (List.mem_of_find?_eq_some h), newest_iff_all.1 hall⟩
  refine ⟨sound, fun ⟨hk, hn⟩ => ?_⟩
  cases hf : newestOf (imagesOf flash l) with
  | none =>
    obtain ⟨j, r, hj, hr, hq⟩ := newestOf_eq_none.1 hf k q hk
    simp [hn j r hj hr] at hq
  | some x =>
    obtain ⟨j, r⟩ := x
    obtain ⟨hj, hnj⟩ := sound hf
    by_cases hjk : j = k
    · subst hjk
      rw [hk] at hj
      cases hj
      rfl
    · have h1 := newer_asymm (hn j r hjk hj)
      simp [hnj k q (Ne.symm hjk) hk] at h1

theorem head?_imagesOf {flash : Vector Sector 5} {l : LogicalId} {k : SectorId} {q : Half} :
    (imagesOf flash l).head? = some (k, q) ↔ validImage (flash[k]) = some (l, q) ∧
      ∀ (j : SectorId) (r : Half), validImage (flash[j]) = some (l, r) → k ≤ j := by
  have sound : ∀ {i : SectorId} {x : Half}, (imagesOf flash l).head? = some (i, x) → validImage (flash[i]) = some (l, x) ∧
      ∀ (j : SectorId) (r : Half), validImage (flash[j]) = some (l, r) → i ≤ j := by
    intro i x h
    obtain ⟨rest, hl⟩ := List.head?_eq_some_iff.1 h
    refine ⟨mem_imagesOf.1 (by simp [hl]), fun j r hj => ?_⟩
    have hp := pairwise_imagesOf flash l
    have hm := mem_imagesOf.2 hj
    rw [hl] at hp hm
    rcases List.mem_cons.1 hm with he | hm
    · cases he
      exact le_rfl
    · exact ((List.pairwise_cons.1 hp).1 _ hm).le
  refine ⟨sound, fun ⟨hk, hlow⟩ => ?_⟩
  cases hh : (imagesOf flash l).head? with
  | none =>
    rw [List.head?_eq_none_iff] at hh
    have hm := mem_imagesOf.2 hk
    simp [hh] at hm
  | some x =>
    obtain ⟨i, x⟩ := x
    obtain ⟨hi, hlow'⟩ := sound hh
    obtain rfl : i = k := le_antisymm (hlow' k q hk) (hlow i x hi)
    rw [hk] at hi
    cases hi
    rfl

/-- The image that the scan keeps (R146 steps 4 and 5). -/
theorem keptMap_eq_some {flash : Vector Sector 5} {l : LogicalId} {k : SectorId} {q : Half} :
    (keptMap flash)[l] = some (k, q) ↔ validImage (flash[k]) = some (l, q) ∧ (Newest flash l k q ∨
      NoneNewest flash l ∧ ∀ (j : SectorId) (r : Half), validImage (flash[j]) = some (l, r) → k ≤ j) := by
  have hkept : (keptMap flash)[l] = keptOf (imagesOf flash l) := by simp [keptMap]
  rw [hkept, keptOf]
  cases hn : newestOf (imagesOf flash l) with
  | none =>
    have hnone := newestOf_eq_none.1 hn
    change (imagesOf flash l).head? = some (k, q) ↔ _
    rw [head?_imagesOf]
    refine ⟨fun ⟨hk, hlow⟩ => ⟨hk, .inr ⟨hnone, hlow⟩⟩, fun ⟨hk, h⟩ => ⟨hk, ?_⟩⟩
    rcases h with h | ⟨-, hlow⟩
    · cases hn.symm.trans (newestOf_eq_some.2 ⟨hk, h⟩)
    · exact hlow
  | some x =>
    change some x = some (k, q) ↔ _
    rw [← hn, newestOf_eq_some]
    refine and_congr_right fun hk => ⟨.inl, fun h => h.resolve_right ?_⟩
    rintro ⟨hnone, -⟩
    cases hn.symm.trans (newestOf_eq_none.2 hnone)

theorem validImage_of_keptMap {flash : Vector Sector 5} {l : LogicalId} {k : SectorId} {q : Half}
    (h : (keptMap flash)[l] = some (k, q)) : validImage (flash[k]) = some (l, q) := (keptMap_eq_some.1 h).1

theorem groupClash_iff {flash : Vector Sector 5} {l : LogicalId} : groupClash (imagesOf flash l) = true ↔
    (∃ (k : SectorId) (q : Half), validImage (flash[k]) = some (l, q)) ∧ NoneNewest flash l := by
  unfold groupClash
  rw [Bool.and_eq_true, Option.isNone_iff_eq_none, newestOf_eq_none]
  refine and_congr_left fun _ => ?_
  simp only [Bool.not_eq_true', List.isEmpty_eq_false_iff_exists_mem, Prod.exists, mem_imagesOf]

/-! ### The sectors to erase -/

/-- The valid sectors of a logical sector that are not kept (R146). -/
def supersededOf (flash : Vector Sector 5) (l : LogicalId) : List SectorId :=
  ((imagesOf flash l).map (·.1)).filter fun k => ((keptOf (imagesOf flash l)).map (·.1)) != some k

theorem sectorsToErase_eq (flash : Vector Sector 5) : sectorsToErase flash =
    ((List.finRange 5).filter fun k => classify (flash[k]) == .partially) ++
      (List.finRange 4).flatMap (supersededOf flash) := rfl

theorem mem_partials {flash : Vector Sector 5} {k : SectorId} :
    k ∈ (List.finRange 5).filter (fun k => classify (flash[k]) == .partially) ↔
      flash[k] ≠ blankSector ∧ validImage (flash[k]) = none := by
  simp only [List.mem_filter, List.mem_finRange, true_and, beq_iff_eq, classify_eq_partially]

theorem mem_supersededOf {flash : Vector Sector 5} {l : LogicalId} {k : SectorId} : k ∈ supersededOf flash l ↔
    (∃ q, validImage (flash[k]) = some (l, q)) ∧ ∀ q, (keptMap flash)[l] ≠ some (k, q) := by
  have hkept : (keptMap flash)[l] = keptOf (imagesOf flash l) := by simp [keptMap]
  rw [supersededOf, ← hkept]
  simp [mem_imagesOf]

/-- Every sector that is neither erased nor kept is to be erased (R146). -/
theorem mem_sectorsToErase {flash : Vector Sector 5} {k : SectorId} : k ∈ sectorsToErase flash ↔
    flash[k] ≠ blankSector ∧ ¬ ∃ (l : LogicalId) (q : Half), (keptMap flash)[l] = some (k, q) := by
  rw [sectorsToErase_eq, List.mem_append, List.mem_flatMap, mem_partials]
  simp only [mem_supersededOf, List.mem_finRange, true_and]
  constructor
  · rintro (⟨hb, hn⟩ | ⟨l, ⟨q, hv⟩, hk⟩)
    · refine ⟨hb, fun ⟨l, q, h⟩ => ?_⟩
      cases hn.symm.trans (validImage_of_keptMap h)
    · refine ⟨ne_blank_of_validImage hv, fun ⟨m, r, h⟩ => ?_⟩
      cases hv.symm.trans (validImage_of_keptMap h)
      exact hk q h
  · rintro ⟨hb, hk⟩
    cases hv : validImage (flash[k]) with
    | none => exact .inl ⟨hb, rfl⟩
    | some x => exact .inr ⟨x.1, ⟨x.2, rfl⟩, fun q h => hk ⟨x.1, q, h⟩⟩

/-- No sector is erased twice: it reads as one thing only. -/
theorem nodup_sectorsToErase (flash : Vector Sector 5) : (sectorsToErase flash).Nodup := by
  rw [sectorsToErase_eq, List.nodup_append', List.nodup_flatMap]
  refine ⟨(List.nodup_finRange 5).filter _, ⟨fun l _ => ?group, ?groups⟩, ?partials⟩
  case group =>
    refine List.Nodup.filter _ ?_
    rw [List.Nodup, List.pairwise_map]
    exact (pairwise_imagesOf flash l).imp ne_of_lt
  case groups =>
    refine (List.nodup_finRange 4).imp fun hlm k hk hk' => ?_
    obtain ⟨⟨q, hq⟩, -⟩ := mem_supersededOf.1 hk
    obtain ⟨⟨r, hr⟩, -⟩ := mem_supersededOf.1 hk'
    cases hq.symm.trans hr
    exact hlm rfl
  case partials =>
    intro k hk hk'
    obtain ⟨l, -, hk'⟩ := List.mem_flatMap.1 hk'
    obtain ⟨⟨q, hq⟩, -⟩ := mem_supersededOf.1 hk'
    cases (mem_partials.1 hk).2.symm.trans hq

/-! ### O7 -/

theorem beginScan_erased (st : Store) (k : SectorId) : st.beginScan.erased[k] = true ↔ st.flash[k] = blankSector := by
  simp [Store.beginScan, classify_eq_erased]

theorem exec_hardResetEnd {s : State} (hp : s.power = .held) :
    exec .hardResetEnd s = .next { s with power := .running, store := s.store.beginScan } :=
  congrArg Host.Outcome.next (if_pos hp)

/-- Settles O7: the kept images by their order, and the rest of what is not erased. -/
theorem hardResetEndBeginsTheScan : Obligations.HardResetEndBeginsTheScan := by
  unfold Obligations.HardResetEndBeginsTheScan
  intro s hp
  refine ⟨_, sectorsToErase s.store.flash, _, exec_hardResetEnd hp, rfl, beginScan_erased s.store,
    fun l k q => keptMap_eq_some, nodup_sectorsToErase _, fun k => mem_sectorsToErase, ?_⟩
  simp only [List.any_eq_true, List.mem_finRange, true_and, groupClash_iff]
  rfl

end Sys2Proof.Machine
end

section
/-! PROOFS. The load of the shadow (O9): which slot takes a binding, and which logical sector has a slot rejected. -/

namespace Sys2Proof.Machine

open Sys2Proof.Safety

/-! ### A slot read as a binding (R147) -/

theorem bindingOfCell_eq_some {x : SlotCell} {b : Binding} : bindingOfCell x = some b ↔
    x = .written b.tag (poolByte b.addr) (byteOf b.cls.val) ∧ validTag b.tag = true := by
  constructor
  · intro h
    unfold bindingOfCell at h
    split at h
    · cases h
    · cases h
    · split at h
      · rename_i hv hp hc
        cases h
        rw [poolByte_of_poolOfByte hp, classOfByte_eq_some_iff.1 hc]
        exact ⟨rfl, hv⟩
      · cases h
  · rintro ⟨rfl, hv⟩
    simp [bindingOfCell, hv, poolOfByte_poolByte, classOfByte_byteOf]

/-! ### The slots and their logical sectors (R123) -/

@[simp] theorem logicalOf_shadowSlot (l : LogicalId) (i : Fin 8) : logicalOf (shadowSlot l i) = l := by
  apply Fin.ext
  simp only [logicalOf, shadowSlot]
  omega

theorem current_logicalOf (st : Store) (l : LogicalId) (i : Fin 8) :
    st.current[logicalOf (shadowSlot l i)] = st.current[l] :=
  congrArg (fun m : LogicalId => st.current[m]) (logicalOf_shadowSlot l i)

theorem cellOf_shadowSlot {st : Store} {l : LogicalId} {x : SectorId} {q : Half} (h : st.current[l] = some (x, q))
    (i : Fin 8) : st.cellOf (shadowSlot l i) = (st.flash[x]).slots[i] := by
  have hmod : (shadowSlot l i).val % 8 = i.val := by
    simp only [shadowSlot]
    omega
  unfold Store.cellOf
  rw [current_logicalOf, h]
  simp only [hmod]
  rfl

theorem cellOf_none {st : Store} {k : BindSlot} (h : st.current[logicalOf k] = none) : st.cellOf k = .blank := by
  unfold Store.cellOf
  rw [h]

/-! ### The load, slot by slot -/

/-- The binding that a slot takes in the load: its own, if it repeats nothing loaded so far (R147). -/
def Load.takes (st : Store) (l : Load) (k : BindSlot) : Option Binding :=
  (bindingOfCell (st.cellOf k)).filter fun b => !l.repeats b

theorem Load.takes_eq_some {st : Store} {l : Load} {k : BindSlot} {b : Binding} : l.takes st k = some b ↔
    st.cellOf k = .written b.tag (poolByte b.addr) (byteOf b.cls.val) ∧ validTag b.tag = true ∧
      ∀ (j : BindSlot) (d : Binding), l.shadow[j] = some d → d.tag ≠ b.tag ∧ d.addr ≠ b.addr := by
  simp only [Load.takes, Option.filter_eq_some_iff, bindingOfCell_eq_some, Bool.not_eq_true', Load.repeats_eq_false, and_assoc]

/-- One slot of the load: its place in the shadow takes its binding, and what is programmed without one is a rejection. -/
theorem Load.step_spec (st : Store) (l : Load) {k : BindSlot} (hk : l.shadow[k] = none) :
    (∀ j : BindSlot, (Load.step st l k).shadow[j] = if j = k then l.takes st k else l.shadow[j]) ∧
    ∀ m : LogicalId, (Load.step st l k).rejected[m] = true ↔
      l.rejected[m] = true ∨ logicalOf k = m ∧ st.cellOf k ≠ .blank ∧ l.takes st k = none := by
  have unchanged : l.takes st k = none → ∀ j : BindSlot, l.shadow[j] = if j = k then l.takes st k else l.shadow[j] := by
    intro h j
    split
    · rw [h, ← hk, ‹j = k›]
    · rfl
  have rejects : ∀ m : LogicalId,
      (l.rejected.set (logicalOf k) true)[m] = true ↔ l.rejected[m] = true ∨ logicalOf k = m := by
    intro m
    rw [getElem_set_fin]
    by_cases h : m = logicalOf k
    · simp [h]
    · simp [h, Ne.symm h]
  unfold Load.step
  split
  · rename_i hb
    have ht : l.takes st k = none := by simp [Load.takes, hb, bindingOfCell]
    exact ⟨unchanged ht, fun m => by simp [hb]⟩
  · rename_i hb
    split
    · rename_i b hc
      split
      · rename_i hr
        have ht : l.takes st k = none := by simp [Load.takes, hc, hr]
        exact ⟨unchanged ht, fun m => (rejects m).trans (by simp [hb, ht])⟩
      · rename_i hr
        have ht : l.takes st k = some b := by simp [Load.takes, hc, hr]
        exact ⟨fun j => by rw [ht]; exact getElem_shadow_set _ _ _ _, fun m => by simp [ht]⟩
    · rename_i hc
      have ht : l.takes st k = none := by simp [Load.takes, hc]
      exact ⟨unchanged ht, fun m => (rejects m).trans (by simp [hb, ht])⟩

/-- What holds at the start of a pass over all numbers below `n` and is carried on from each to the next, holds at its end. -/
theorem foldl_finRange_induction {n : Nat} {β : Type} {f : β → Fin n → β} {P : Nat → β → Prop} {b : β} (start : P 0 b)
    (next : ∀ (k : Fin n) (b : β), P k.val b → P (k.val + 1) (f b k)) : P n ((List.finRange n).foldl f b) := by
  have upTo : ∀ i, i ≤ n → P i (((List.finRange n).take i).foldl f b) := by
    intro i
    induction i with
    | zero => exact fun _ => start
    | succ i ih =>
      intro hi
      rw [List.take_succ_eq_append_getElem (by simpa using hi), List.foldl_append, List.getElem_finRange]
      exact next ⟨i, hi⟩ _ (ih (Nat.le_of_succ_le hi))
  have h := upTo n le_rfl
  rwa [List.take_of_length_le (by simp)] at h

/-- The load after its slots below `n` (R147). -/
structure LoadedTo (st : Store) (n : Nat) (l : Load) : Prop where
  shadow : ∀ (k : BindSlot) (b : Binding), l.shadow[k] = some b ↔ k.val < n ∧
    st.cellOf k = .written b.tag (poolByte b.addr) (byteOf b.cls.val) ∧ validTag b.tag = true ∧
    ∀ (j : BindSlot) (d : Binding), j < k → l.shadow[j] = some d → d.tag ≠ b.tag ∧ d.addr ≠ b.addr
  rejected : ∀ m : LogicalId, l.rejected[m] = true ↔
    ∃ k : BindSlot, k.val < n ∧ logicalOf k = m ∧ st.cellOf k ≠ .blank ∧ l.shadow[k] = none

theorem LoadedTo.not_yet {st : Store} {n : Nat} {l : Load} (h : LoadedTo st n l) {k : BindSlot} (hk : n ≤ k.val) :
    l.shadow[k] = none :=
  Option.eq_none_iff_forall_ne_some.2 fun b hb => absurd ((h.shadow k b).1 hb).1 (Nat.not_lt.2 hk)

theorem LoadedTo.step {st : Store} {k : BindSlot} {l : Load} (h : LoadedTo st k.val l) :
    LoadedTo st (k.val + 1) (Load.step st l k) := by
  obtain ⟨hshadow, hrejected⟩ := Load.step_spec st l (h.not_yet le_rfl)
  have below : ∀ j : BindSlot, j < k → (Load.step st l k).shadow[j] = l.shadow[j] := fun j hj => by
    rw [hshadow, if_neg hj.ne]
  refine ⟨fun j b => ?_, fun m => ?_⟩
  · rcases lt_trichotomy j k with hj | rfl | hj
    · have hlt : j.val < k.val := hj
      rw [below j hj, h.shadow]
      refine and_congr (iff_of_true hlt (by omega)) (and_congr_right fun _ => and_congr_right fun _ => ?_)
      exact forall₂_congr fun i d => forall_congr' fun hi => by rw [below i (hi.trans hj)]
    · rw [hshadow, if_pos rfl, Load.takes_eq_some, and_iff_right (Nat.lt_succ_self _)]
      refine and_congr_right fun _ => and_congr_right fun _ => ⟨fun hd i d hi => ?_, fun hd i d hi => ?_⟩
      · rw [below i hi]
        exact hd i d
      · have hij : i < j := ((h.shadow i d).1 hi).1
        exact hd i d hij ((below i hij).trans hi)
    · have hlt : k.val < j.val := hj
      rw [hshadow, if_neg hj.ne', h.not_yet hlt.le]
      exact iff_of_false nofun fun hn => by omega
  · rw [hrejected, h.rejected]
    constructor
    · rintro (⟨j, hj, hm, hc, hs⟩ | ⟨hm, hc, ht⟩)
      · exact ⟨j, by omega, hm, hc, (below j hj).trans hs⟩
      · exact ⟨k, by omega, hm, hc, by rw [hshadow, if_pos rfl, ht]⟩
    · rintro ⟨j, hj, hm, hc, hs⟩
      rcases Nat.lt_succ_iff_lt_or_eq.1 hj with hlt | he
      · exact .inl ⟨j, hlt, hm, hc, (below j hlt).symm.trans hs⟩
      · obtain rfl := Fin.ext he
        rw [hshadow, if_pos rfl] at hs
        exact .inr ⟨hm, hc, hs⟩

theorem loadedTo_loadShadow (st : Store) : LoadedTo st 32 st.loadShadow := by
  refine foldl_finRange_induction (P := LoadedTo st) ⟨fun k b => ?_, fun m => ?_⟩ fun k l h => h.step
  · simp
  · simp

theorem mem_repairs {l : Load} {m : LogicalId} : m ∈ l.repairs ↔ l.rejected[m] = true := by simp [Load.repairs]

/-- A logical sector without a rejected slot is loaded just as it stands in the flash. -/
theorem agrees_loadShadow {st : Store} (hv : CurrentValid st) {l : LogicalId} (hl : l ∉ st.loadShadow.repairs) :
    Agrees st st.loadShadow.shadow l := by
  have h := loadedTo_loadShadow st
  have cell : ∀ i, st.cellOf (shadowSlot l i) = slotCell (st.loadShadow.shadow[shadowSlot l i]) := by
    intro i
    cases hs : st.loadShadow.shadow[shadowSlot l i] with
    | some b => exact ((h.shadow _ b).1 hs).2.1
    | none =>
      by_contra hc
      exact hl (mem_repairs.2 ((h.rejected l).2 ⟨_, (shadowSlot l i).isLt, logicalOf_shadowSlot l i, hc, hs⟩))
  unfold Agrees
  cases hc : st.current[l] with
  | none =>
    refine fun i => Option.eq_none_iff_forall_ne_some.2 fun b hb => ?_
    have hcell := ((h.shadow _ b).1 hb).2.1
    rw [cellOf_none ((current_logicalOf st l i).trans hc)] at hcell
    cases hcell
  | some x =>
    obtain ⟨k, q⟩ := x
    have hslots : (st.flash[k]).slots = imageSlots st.loadShadow.shadow l := by
      refine Vector.ext fun i hi => ?_
      rw [imageSlots, Vector.getElem_ofFn, ← cell, cellOf_shadowSlot hc]
      rfl
    obtain ⟨hmark, hheader⟩ := validImage_eq_some.1 (hv l k q hc)
    change st.flash[k] = ⟨_, _, _⟩
    rw [← hslots, ← hmark, ← hheader]

/-! ### O9 -/

theorem afterErases_erasing {st : Store} {inconsistent touched : Bool}
    (h : st.mode = .scanning ⟨.erasing [], inconsistent, touched⟩) : st.afterErases = { st with
      shadow := st.loadShadow.shadow
      mode := .scanning ⟨.repairing st.loadShadow.repairs [], inconsistent || !st.loadShadow.repairs.isEmpty, touched⟩ } := by
  rw [Store.afterErases, h]

theorem afterErases_repairing {st : Store} {todo : List LogicalId} {tried : List SectorId} {inconsistent touched : Bool}
    (h : st.mode = .scanning ⟨.repairing todo tried, inconsistent, touched⟩) : st.afterErases = st := by
  rw [Store.afterErases, h]

theorem exec_scanEnd_waits {s : State} {l : LogicalId} {rest : List LogicalId} {tried : List SectorId}
    {inconsistent touched : Bool} (hp : s.power = .running)
    (h : s.store.afterErases.mode = .scanning ⟨.repairing (l :: rest) tried, inconsistent, touched⟩) :
    exec .scanEnd s = .next s := by
  rw [exec, execScanEnd, whenRunning_running _ hp, h]

theorem exec_scanEnd_after {s : State} {tried : List SectorId} {inconsistent touched : Bool} (hp : s.power = .running)
    (h : s.store.afterErases.mode = .scanning ⟨.repairing [] tried, inconsistent, touched⟩) :
    exec .scanEnd s = .next (s.endScan s.store.afterErases (scanOutcome inconsistent touched)) := by
  rw [exec, execScanEnd, whenRunning_running _ hp, h]

theorem exec_scanRepair_after {s : State} {l : LogicalId} {rest : List LogicalId} {tried : List SectorId}
    {inconsistent touched : Bool} (hp : s.power = .running)
    (h : s.store.afterErases.mode = .scanning ⟨.repairing (l :: rest) tried, inconsistent, touched⟩) (image : Sector)
    (mark : Bool) (erase retry : Sector) : exec (.scanRepair image mark erase retry) s =
      .next (s.withStore (s.store.afterErases.repairStep l rest tried inconsistent image mark erase retry)) := by
  rw [exec, execScanRepair, whenRunning_running _ hp, h]

theorem exec_scanRepair_done {s : State} {tried : List SectorId} {inconsistent touched : Bool} (hp : s.power = .running)
    (h : s.store.afterErases.mode = .scanning ⟨.repairing [] tried, inconsistent, touched⟩) (image : Sector)
    (mark : Bool) (erase retry : Sector) : exec (.scanRepair image mark erase retry) s = .next s := by
  rw [exec, execScanRepair, whenRunning_running _ hp, h]

/-- Settles O9: the load slot by slot, and the two events that may contain it. -/
theorem scanLoadsTheShadow : Obligations.ScanLoadsTheShadow := by
  unfold Obligations.ScanLoadsTheShadow
  refine ⟨fun st => ?load, fun s inconsistent touched hp hm => ?event⟩
  case load =>
    have h := loadedTo_loadShadow st
    refine ⟨st.loadShadow_noRepeat, fun k b => ?_, fun l => ?_⟩
    · rw [h.shadow, and_iff_right k.isLt]
    · rw [mem_repairs, h.rejected]
      exact exists_congr fun k => and_iff_right k.isLt
  case event =>
    intro repairs loaded
    have hs := afterErases_erasing hm
    have hl : loaded.store.afterErases = loaded.store := afterErases_repairing (st := loaded.store) rfl
    refine ⟨(List.pairwise_lt_finRange 4).filter _, fun image mark erase retry => ⟨fun hr => ?nothing, fun hr => ?some⟩⟩
    case nothing =>
      have hmode : s.store.afterErases.mode = .scanning ⟨.repairing [] [], inconsistent || !repairs.isEmpty, touched⟩ := by
        rw [hs, ← hr]
      refine ⟨?_, exec_scanRepair_done hp hmode _ _ _ _⟩
      rw [exec_scanEnd_after hp hmode, exec_scanEnd_after (s := loaded) (tried := []) hp (by rw [hl, ← hr]), hl, hs]
      rfl
    case some =>
      obtain ⟨l, rest, hlr⟩ := List.exists_cons_of_ne_nil hr
      have hmode : s.store.afterErases.mode =
          .scanning ⟨.repairing (l :: rest) [], inconsistent || !repairs.isEmpty, touched⟩ := by
        rw [hs, ← hlr]
      refine ⟨exec_scanEnd_waits hp hmode, ?_⟩
      rw [exec_scanRepair_after hp hmode, exec_scanRepair_after (s := loaded) hp (by rw [hl, ← hlr]), hl, hs]
      rfl

end Sys2Proof.Machine
end

section
/-! PROOFS. The erases and the repairs of the start-up scan (O8), and the steps of a rewrite short of its outcome (O50). -/

namespace Sys2Proof.Machine

open Sys2Proof.Safety

/-! ### An erase with one retry (R140) -/

/-- An erase of a sector and, where its read-back is wrong, one more. -/
def Store.eraseTwice (st : Store) (k : SectorId) (erase retry : Sector) : Store :=
  if erase = blankSector then st.eraseSector k erase
  else (st.setFlash k (eraseFailed (st.flash[k]) erase)).eraseSector k retry

theorem Store.eraseTwice_erased (st : Store) (k : SectorId) {erase retry : Sector}
    (h : erase = blankSector ∨ retry = blankSector) : st.eraseTwice k erase retry =
      { st with flash := st.flash.set k blankSector, erased := st.erased.set k true } := by
  unfold Store.eraseTwice
  split
  · rename_i he
    rw [he, Store.eraseSector_blank]
  · rename_i he
    rw [h.resolve_left he, Store.eraseSector_blank]
    simp [Store.setFlash]

/-- What an erase leaves that fails twice reads as the image that it was to erase (R140). -/
theorem Store.eraseTwice_bad (st : Store) (k : SectorId) {erase retry : Sector} (he : erase ≠ blankSector)
    (hr : retry ≠ blankSector) : ∃ left, st.eraseTwice k erase retry =
      { st with flash := st.flash.set k left, bad := st.bad.set k true } ∧ validImage left = validImage (st.flash[k]) := by
  refine ⟨eraseFailed (eraseFailed (st.flash[k]) erase) retry, ?_, ?_⟩
  · unfold Store.eraseTwice
    rw [if_neg he, Store.eraseSector_bad _ _ hr]
    simp [Store.setFlash]
  · rw [validImage_eraseFailed, validImage_eraseFailed]

@[simp] theorem Store.eraseSector_current (st : Store) (k : SectorId) (x : Sector) :
    (st.eraseSector k x).current = st.current := by
  unfold Store.eraseSector
  split <;> rfl

@[simp] theorem Store.eraseTwice_current (st : Store) (k : SectorId) (erase retry : Sector) :
    (st.eraseTwice k erase retry).current = st.current := by
  unfold Store.eraseTwice
  split <;> simp [Store.setFlash]

/-! ### One repair (R148) -/

theorem Store.nextSeq_some {st : Store} {l : LogicalId} {k : SectorId} {q : Half} (h : st.current[l] = some (k, q)) :
    st.nextSeq l = q + 1 := by
  rw [Store.nextSeq, h]

theorem Store.nextTarget_of_lowest {st : Store} {tried : List SectorId} {t : SectorId} (he : st.erased[t] = true)
    (ht : t ∉ tried) (hlow : ∀ j : SectorId, j < t → st.erased[j] = true → j ∈ tried) : st.nextTarget tried = some t := by
  refine find?_finRange_eq_some_iff.2 ⟨by simpa [ht] using he, fun j hj => ?_⟩
  cases hej : st.erased[j] with
  | false => rfl
  | true => simpa using hlow j hj hej

theorem Store.nextTarget_of_none {st : Store} {tried : List SectorId}
    (h : ∀ j : SectorId, st.erased[j] = true → j ∈ tried) : st.nextTarget tried = none := by
  refine List.find?_eq_none.2 fun j _ => ?_
  simpa using h j

theorem Store.repaired_some {st : Store} {l : LogicalId} {k : SectorId} {p : Half} (h : st.current[l] = some (k, p))
    (t : SectorId) (q : Half) (erase retry : Sector) : st.repaired l t q erase retry =
      { st.eraseTwice k erase retry with current := st.current.set l (some (t, q)) } := by
  have hc := st.eraseTwice_current k erase retry
  unfold Store.repaired
  rw [h]
  change { st.eraseTwice k erase retry with current := (st.eraseTwice k erase retry).current.set l (some (t, q)) } = _
  rw [hc]

section
variable {st : Store} {l : LogicalId} {rest : List LogicalId} {tried : List SectorId} {i mark : Bool}
  {image erase retry : Sector} {t : SectorId}

/-- The target of a repair, out of the erased set, with what programming has left in it. -/
def Store.targetWritten (st : Store) (t : SectorId) (x : Sector) : Store :=
  { st with erased := st.erased.set t false, flash := st.flash.set t x }

/-- The repair of which the new image stands. -/
theorem Store.repairStep_stands (ht : st.nextTarget tried = some t)
    (hi : { image with mark := false } = programmed l (st.nextSeq l) false (imageSlots st.shadow l)) (hm : mark = true) :
    st.repairStep l rest tried i image mark erase retry =
      { (st.targetWritten t (programmed l (st.nextSeq l) true (imageSlots st.shadow l))).repaired l t (st.nextSeq l)
          erase retry with
        mode := .scanning ⟨.repairing rest [], i, true⟩ } := by
  have marked : { image with mark := true } = programmed l (st.nextSeq l) true (imageSlots st.shadow l) :=
    congrArg (fun x : Sector => { x with mark := true }) hi
  unfold Store.repairStep
  rw [ht]
  dsimp only
  rw [if_pos ⟨hi, hm⟩, marked]
  rfl

/-- The repair whose target fails. -/
theorem Store.repairStep_fails (ht : st.nextTarget tried = some t)
    (h : ¬ ({ image with mark := false } = programmed l (st.nextSeq l) false (imageSlots st.shadow l) ∧ mark = true)) :
    st.repairStep l rest tried i image mark erase retry =
      { (st.targetWritten t { image with mark := false }).eraseSector t erase with
        mode := .scanning ⟨.repairing (l :: rest) (t :: tried), i, true⟩ } := by
  unfold Store.repairStep
  rw [ht]
  dsimp only
  rw [if_neg h]
  rfl

/-- The repair without a target. -/
theorem Store.repairStep_givesUp (ht : st.nextTarget tried = none) : st.repairStep l rest tried i image mark erase retry =
    { st.giveUpLogical l erase with mode := .scanning ⟨.repairing rest [], i, true⟩ } := by
  unfold Store.repairStep
  rw [ht]

end

theorem Store.giveUpLogical_some {st : Store} {l : LogicalId} {k : SectorId} {q : Half} (h : st.current[l] = some (k, q))
    (erase : Sector) : st.giveUpLogical l erase = { st.eraseSector k erase with
      current := st.current.set l none, shadow := emptyLogical st.shadow l } := by
  have hc := st.eraseSector_current k erase
  have hs := st.eraseSector_shadow k erase
  unfold Store.giveUpLogical
  rw [h]
  dsimp only
  rw [hc, hs]

theorem getElem_emptyLogical (v : Vector (Option Binding) 32) (l : LogicalId) (k : BindSlot) :
    (emptyLogical v l)[k] = if logicalOf k = l then none else v[k] := by
  simp [emptyLogical]

/-! ### O8 -/

theorem exec_scanSectorErase_next {s : State} {k : SectorId} {rest : List SectorId} {inconsistent touched : Bool}
    (hp : s.power = .running) (hm : s.store.mode = .scanning ⟨.erasing (k :: rest), inconsistent, touched⟩)
    (reads : Sector) : exec (.scanSectorErase reads) s =
      .next (s.withStore { s.store.eraseSector k reads with mode := .scanning ⟨.erasing rest, inconsistent, true⟩ }) := by
  rw [exec, execScanSectorErase, whenRunning_running _ hp, hm]

theorem exec_scanRepair_next {s : State} {l : LogicalId} {rest : List LogicalId} {tried : List SectorId}
    {inconsistent touched : Bool} (hp : s.power = .running)
    (hm : s.store.mode = .scanning ⟨.repairing (l :: rest) tried, inconsistent, touched⟩) (image : Sector) (mark : Bool)
    (erase retry : Sector) : exec (.scanRepair image mark erase retry) s =
      .next (s.withStore (s.store.repairStep l rest tried inconsistent image mark erase retry)) := by
  have ha := afterErases_repairing hm
  rw [exec_scanRepair_after hp (by rw [ha, hm]), ha]

/-- Settles O8: by the read-backs, and by whether the repair has a target. -/
theorem scanErasesAndRepairs : Obligations.ScanErasesAndRepairs := by
  unfold Obligations.ScanErasesAndRepairs
  refine ⟨fun s k rest inconsistent touched reads hp hm => ⟨fun hr => ?_, fun hr => ?_⟩,
    fun s l rest tried inconsistent touched mark k q image erase retry hp hm hc => ⟨fun t htk he ht hlow => ?target,
      fun hall => ?noTarget⟩⟩
  · rw [exec_scanSectorErase_next hp hm, hr, Store.eraseSector_blank]
    rfl
  · refine ⟨eraseFailed (s.store.flash[k]) reads, ?_, validImage_eraseFailed _ _⟩
    rw [exec_scanSectorErase_next hp hm, Store.eraseSector_bad _ _ hr]
    rfl
  case target =>
    have hnext := Store.nextTarget_of_lowest he ht hlow
    have hseq := Store.nextSeq_some hc
    rw [exec_scanRepair_next hp hm]
    have stands : { image with mark := false } = programmed l (q + 1) false (imageSlots s.store.shadow l) → mark = true →
        s.store.repairStep l rest tried inconsistent image mark erase retry =
          { (s.store.targetWritten t (programmed l (q + 1) true (imageSlots s.store.shadow l))).eraseTwice k erase retry with
            current := s.store.current.set l (some (t, q + 1))
            mode := .scanning ⟨.repairing rest [], inconsistent, true⟩ } := by
      intro hi hmark
      rw [Store.repairStep_stands hnext (hseq.symm ▸ hi) hmark, Store.repaired_some (by exact hc), hseq]
      rfl
    refine ⟨fun hi hmark hb => ?_, fun hi hmark _ hb => ?_, fun hi hmark hb hb' => ?_, fun hbad => ?_⟩
    · rw [stands hi hmark, Store.eraseTwice_erased _ _ (.inl hb)]
      rfl
    · rw [stands hi hmark, Store.eraseTwice_erased _ _ (.inr hb)]
      rfl
    · obtain ⟨left, hleft, hv⟩ := (s.store.targetWritten t
        (programmed l (q + 1) true (imageSlots s.store.shadow l))).eraseTwice_bad k hb hb'
      refine ⟨left, ?_, hv.trans (congrArg validImage (getElem_set_other _ htk.symm _))⟩
      rw [stands hi hmark, hleft]
      rfl
    · rw [Store.repairStep_fails hnext (by rwa [hseq])]
      refine ⟨_, rfl, rfl, Store.eraseSector_current _ _ _, Store.eraseSector_shadow _ _ _, fun hb => ?_, fun hb => ?_⟩
      · have herased : (s.store.erased.set t false).set t true = s.store.erased := by
          refine Vector.ext fun j hj => ?_
          have h1 := getElem_set_fin (s.store.erased.set t false) t ⟨j, hj⟩ true
          have h2 := getElem_set_fin s.store.erased t ⟨j, hj⟩ false
          simp only [Fin.getElem_fin] at h1 h2
          rw [h1, h2]
          split
          · rename_i h
            exact (h ▸ he).symm
          · rfl
        rw [hb, Store.eraseSector_blank]
        refine ⟨herased, rfl, ?_⟩
        simp [Store.targetWritten]
      · rw [Store.eraseSector_bad _ _ hb]
        refine ⟨rfl, rfl, eraseFailed { image with mark := false } erase, ?_, ?_⟩
        · simp [Store.targetWritten]
        · rw [validImage_eraseFailed, validImage_of_unmarked rfl]
  case noTarget =>
    rw [exec_scanRepair_next hp hm, Store.repairStep_givesUp (Store.nextTarget_of_none hall), Store.giveUpLogical_some hc]
    refine ⟨_, rfl, rfl, rfl, fun j => getElem_emptyLogical _ l j, fun hb => ?_, fun hb => ?_⟩
    · rw [hb, Store.eraseSector_blank]
      exact ⟨rfl, rfl, rfl⟩
    · rw [Store.eraseSector_bad _ _ hb]
      exact ⟨rfl, rfl, _, rfl, validImage_eraseFailed _ _⟩

/-! ### O50 -/

section
variable {s : State} {r : Rewrite}

theorem exec_imageProgram (hp : s.power = .running) (hm : s.store.mode = .rewriting r) (hs : r.step = .program)
    (reads : Sector) : exec (.imageProgram reads) s = .next (s.withStore
      ((s.store.setFlash r.target { reads with mark := false }).toStep r
        (if { reads with mark := false } = programmed r.logical r.seq false (r.slots s.store) then .mark
          else .eraseTarget))) := by
  rw [exec, execImageProgram, whenRunning_running _ hp]
  simp only [hm, hs, if_true, decide_eq_true_eq]

theorem exec_validMark_fails (hp : s.power = .running) (hm : s.store.mode = .rewriting r) (hs : r.step = .mark) :
    exec (.validMark false) s = .next (s.withStore (s.store.toStep r .eraseTarget)) := by
  rw [exec, execValidMark, whenRunning_running _ hp]
  simp only [hm, hs, if_true, Bool.false_eq_true, if_false]

theorem exec_validMark_goes (hp : s.power = .running) (hm : s.store.mode = .rewriting r) (hs : r.step = .mark)
    {x : SectorId × Half} (hc : s.store.current[r.logical] = some x) : exec (.validMark true) s = .next (s.withStore
      ((s.store.setFlash r.target { s.store.flash[r.target] with mark := true }).toStep r (.eraseOld false))) := by
  rw [exec, execValidMark, whenRunning_running _ hp]
  simp only [hm, hs, if_true, hc]

theorem exec_supersededErase_retries (hp : s.power = .running) (hm : s.store.mode = .rewriting r)
    (hs : r.step = .eraseOld false) {k : SectorId} {q : Half} (hc : s.store.current[r.logical] = some (k, q))
    {reads : Sector} (hr : reads ≠ blankSector) : exec (.supersededErase reads) s = .next (s.withStore
      ((s.store.setFlash k (eraseFailed (s.store.flash[k]) reads)).toStep r (.eraseOld true))) := by
  rw [exec, execSupersededErase, whenRunning_running _ hp]
  simp only [hm, hs, hc, if_neg hr, Bool.false_eq_true, if_false]

end

/-- Settles O50: step by step. -/
theorem stepsOfARewrite : Obligations.StepsOfARewrite := by
  unfold Obligations.StepsOfARewrite
  intro s r hp hm goes
  refine ⟨fun reads hs => exec_imageProgram hp hm hs reads, fun hs => exec_validMark_fails hp hm hs, fun hs hc => ?_,
    fun reads k q hs hc hr hv => ⟨_, exec_supersededErase_retries hp hm hs hc hr, (validImage_eraseFailed _ _).trans hv⟩⟩
  obtain ⟨x, hx⟩ := Option.ne_none_iff_exists'.1 hc
  exact exec_validMark_goes hp hm hs hx

end Sys2Proof.Machine
end

section
/-! SUPPORT. The sectors of a sound store: erased, bad, current, or loose, which is in no set. What each operation on a sector
keeps of it. -/

namespace Sys2Proof.Machine

open Sys2Proof.Safety

/-! ### SoundMap sectors -/

/-- The sector map is right, the current sectors read as valid under it, and the sectors that are in neither set and current
for nothing are just the loose ones (R127). -/
structure SoundMap (st : Store) (loose : SectorId → Prop) : Prop where
  map : MapLaw st
  valid : CurrentValid st
  covered : ∀ k : SectorId, loose k ∨ Covered st k
  loose : ∀ k : SectorId, loose k → st.erased[k] = false ∧ st.bad[k] = false ∧ ¬ IsCurrent st k

/-- No sector is loose. -/
def noSector (_ : SectorId) : Prop := False

theorem SoundMap.congr_loose {st : Store} {loose loose' : SectorId → Prop} (h : SoundMap st loose)
    (he : ∀ k, loose k ↔ loose' k) : SoundMap st loose' :=
  (funext fun k => propext (he k) : loose = loose') ▸ h

theorem SoundMap.covered_all {st : Store} (h : SoundMap st noSector) (k : SectorId) : Covered st k :=
  (h.covered k).resolve_left id

section
variable {st : Store} {loose : SectorId → Prop} {l : LogicalId} {k : SectorId} {q : Half}

theorem SoundMap.not_erased_of_current (h : SoundMap st loose) (hc : st.current[l] = some (k, q)) : st.erased[k] = false :=
  (h.map.2.1 l k q hc).1

theorem SoundMap.not_bad_of_current (h : SoundMap st loose) (hc : st.current[l] = some (k, q)) : st.bad[k] = false :=
  (h.map.2.1 l k q hc).2

theorem SoundMap.not_bad_of_erased (h : SoundMap st loose) (he : st.erased[k] = true) : st.bad[k] = false := (h.map.1 k he).1

theorem SoundMap.blank_of_erased (h : SoundMap st loose) (he : st.erased[k] = true) : st.flash[k] = blankSector := (h.map.1 k he).2

theorem SoundMap.not_current_of_erased (h : SoundMap st loose) (he : st.erased[k] = true) : ¬ IsCurrent st k := by
  rintro ⟨l, q, hc⟩
  simp [h.not_erased_of_current hc] at he

/-- A sector is current for one logical sector only (R127). -/
theorem SoundMap.ne_of_current (h : SoundMap st loose) (hc : st.current[l] = some (k, q)) {m : LogicalId} {j : SectorId} {r : Half}
    (hm : m ≠ l) (hj : st.current[m] = some (j, r)) : j ≠ k := by
  rintro rfl
  exact hm (h.map.2.2 m l j r q hj hc)

theorem SoundMap.ne_of_loose (h : SoundMap st loose) (hk : loose k) {j : SectorId} {r : Half}
    (hj : st.current[l] = some (j, r)) : j ≠ k := by
  rintro rfl
  exact (h.loose j hk).2.2 ⟨l, r, hj⟩

/-- The shadow, the mode and the last result are no part of it. -/
theorem SoundMap.same {st' : Store} (h : SoundMap st loose) (hf : st'.flash = st.flash) (hc : st'.current = st.current)
    (he : st'.erased = st.erased) (hb : st'.bad = st.bad) : SoundMap st' loose := by
  obtain ⟨flash, shadow, mode, current, erased, bad, last⟩ := st
  obtain ⟨flash', shadow', mode', current', erased', bad', last'⟩ := st'
  cases hf
  cases hc
  cases he
  cases hb
  exact ⟨h.map, h.valid, h.covered, h.loose⟩

/-! ### Operations on a sector -/

/-- A sector is taken out of the erased set (R138 step 1). -/
theorem SoundMap.take (h : SoundMap st loose) (he : st.erased[k] = true) :
    SoundMap { st with erased := st.erased.set k false } fun j => loose j ∨ j = k := by
  have erased : ∀ j : SectorId, (st.erased.set k false)[j] = if j = k then false else st.erased[j] :=
    fun j => getElem_set_fin _ _ _ _
  have kept : ∀ j : SectorId, st.erased[j] = false → (st.erased.set k false)[j] = false := by
    intro j hj
    rw [erased]
    split
    · rfl
    · exact hj
  refine ⟨⟨fun j hj => ?_, fun m j r hc => ⟨kept j (h.not_erased_of_current hc), h.not_bad_of_current hc⟩, h.map.2.2⟩,
    h.valid, fun j => ?_, fun j hj => ?_⟩
  · change (st.erased.set k false)[j] = true at hj
    rw [erased] at hj
    split at hj
    · cases hj
    · exact h.map.1 j hj
  · by_cases hjk : j = k
    · exact .inl (.inr hjk)
    · rcases h.covered j with hl | hb | hj | hc
      · exact .inl (.inl hl)
      · exact .inr (.inl hb)
      · exact .inr (.inr (.inl ((erased j).trans ((if_neg hjk).trans hj))))
      · exact .inr (.inr (.inr hc))
  · rcases hj with hj | rfl
    · obtain ⟨hje, hjb, hjc⟩ := h.loose j hj
      exact ⟨kept j hje, hjb, hjc⟩
    · exact ⟨(erased j).trans (if_pos rfl), h.not_bad_of_erased he, h.not_current_of_erased he⟩

/-- A loose sector is written. -/
theorem SoundMap.write (h : SoundMap st loose) (hk : loose k) (x : Sector) : SoundMap (st.setFlash k x) loose := by
  have flash : ∀ j : SectorId, j ≠ k → (st.setFlash k x).flash[j] = st.flash[j] := fun j hj => getElem_set_other _ hj _
  refine ⟨⟨fun j hj => ⟨h.not_bad_of_erased hj, ?_⟩, h.map.2.1, h.map.2.2⟩, fun m j r hc => ?_, h.covered, h.loose⟩
  · have hjk : j ≠ k := by
      rintro rfl
      have hj' : st.erased[j] = true := hj
      simp [(h.loose j hk).1] at hj'
    rw [flash j hjk]
    exact h.blank_of_erased hj
  · rw [flash j (h.ne_of_loose hk hc)]
    exact h.valid m j r hc

/-- The result of an erase that has been read back (R125): in the erased set, or in the bad set and reading as the image that
it held before. -/
inductive Erases (st : Store) (k : SectorId) : Store → Prop
  | blank : Erases st k { st with flash := st.flash.set k blankSector, erased := st.erased.set k true }
  | bad (left : Sector) : validImage left = validImage (st.flash[k]) →
      Erases st k { st with flash := st.flash.set k left, bad := st.bad.set k true }

theorem erases_eraseSector (st : Store) (k : SectorId) (x : Sector) : Erases st k (st.eraseSector k x) := by
  by_cases h : x = blankSector
  · rw [h, Store.eraseSector_blank]
    exact .blank
  · rw [Store.eraseSector_bad _ _ h]
    exact .bad _ (validImage_eraseFailed _ _)

theorem erases_eraseTwice (st : Store) (k : SectorId) (erase retry : Sector) :
    Erases st k (st.eraseTwice k erase retry) := by
  by_cases h : erase = blankSector ∨ retry = blankSector
  · rw [Store.eraseTwice_erased _ _ h]
    exact .blank
  · rw [not_or] at h
    obtain ⟨left, he, hv⟩ := st.eraseTwice_bad k h.1 h.2
    rw [he]
    exact .bad left hv

theorem Erases.current {st' : Store} (h : Erases st k st') : st'.current = st.current := by cases h <;> rfl

theorem Erases.shadow {st' : Store} (h : Erases st k st') : st'.shadow = st.shadow := by cases h <;> rfl

theorem Erases.flash {st' : Store} (h : Erases st k st') {j : SectorId} (hj : j ≠ k) : st'.flash[j] = st.flash[j] := by
  cases h with
  | blank => exact getElem_set_other _ hj _
  | bad left => exact getElem_set_other _ hj _

/-- A loose sector that is blank joins the erased set. -/
theorem SoundMap.join (h : SoundMap st loose) (hk : loose k) (hb : st.flash[k] = blankSector) :
    SoundMap { st with erased := st.erased.set k true } fun j => loose j ∧ j ≠ k := by
  obtain ⟨-, hkb, -⟩ := h.loose k hk
  have here : (st.erased.set k true)[k] = true := Vector.getElem_set_self k.isLt
  have other : ∀ j : SectorId, j ≠ k → (st.erased.set k true)[j] = st.erased[j] := fun j hj =>
    (getElem_set_fin _ _ _ _).trans (if_neg hj)
  refine ⟨⟨fun j hj => ?_, fun m j r hc => ?_, h.map.2.2⟩, h.valid, fun j => ?_, fun j ⟨hj, hjk⟩ => ?_⟩
  · by_cases hjk : j = k
    · rw [hjk]
      exact ⟨hkb, hb⟩
    · exact h.map.1 j ((other j hjk).symm.trans hj)
  · exact ⟨(other j (h.ne_of_loose hk hc)).trans (h.not_erased_of_current hc), h.not_bad_of_current hc⟩
  · by_cases hjk : j = k
    · exact .inr (.inr (.inl (hjk ▸ here)))
    · rcases h.covered j with hl | hb | he | hc
      · exact .inl ⟨hl, hjk⟩
      · exact .inr (.inl hb)
      · exact .inr (.inr (.inl ((other j hjk).trans he)))
      · exact .inr (.inr (.inr hc))
  · obtain ⟨he, hb, hc⟩ := h.loose j hj
    exact ⟨(other j hjk).trans he, hb, hc⟩

/-- A loose sector goes to the bad set. -/
theorem SoundMap.condemn (h : SoundMap st loose) (hk : loose k) :
    SoundMap { st with bad := st.bad.set k true } fun j => loose j ∧ j ≠ k := by
  obtain ⟨hke, -, -⟩ := h.loose k hk
  have here : (st.bad.set k true)[k] = true := Vector.getElem_set_self k.isLt
  have other : ∀ j : SectorId, j ≠ k → (st.bad.set k true)[j] = st.bad[j] := fun j hj =>
    (getElem_set_fin _ _ _ _).trans (if_neg hj)
  refine ⟨⟨fun j hj => ?_, fun m j r hc => ?_, h.map.2.2⟩, h.valid, fun j => ?_, fun j ⟨hj, hjk⟩ => ?_⟩
  · have hjk : j ≠ k := by
      rintro rfl
      exact Bool.false_ne_true (hke.symm.trans hj)
    exact ⟨(other j hjk).trans (h.not_bad_of_erased hj), h.blank_of_erased hj⟩
  · exact ⟨h.not_erased_of_current hc, (other j (h.ne_of_loose hk hc)).trans (h.not_bad_of_current hc)⟩
  · by_cases hjk : j = k
    · exact .inr (.inl (hjk ▸ here))
    · rcases h.covered j with hl | hb | hs
      · exact .inl ⟨hl, hjk⟩
      · exact .inr (.inl ((other j hjk).trans hb))
      · exact .inr (.inr hs)
  · obtain ⟨he, hb, hc⟩ := h.loose j hj
    exact ⟨he, (other j hjk).trans hb, hc⟩

/-- A loose sector that has been erased is in a set (R125). -/
theorem SoundMap.erase {st' : Store} (h : SoundMap st loose) (hk : loose k) (he : Erases st k st') :
    SoundMap st' fun j => loose j ∧ j ≠ k := by
  cases he with
  | blank => exact (h.write hk blankSector).join hk (getElem_set_same _ _ _)
  | bad left _ => exact (h.write hk left).condemn hk

/-- The current sector of a logical sector changes: to none, or to a loose sector that reads as its image. The sector that
was current is then loose (R138, R140, R148). -/
theorem SoundMap.setCurrent (h : SoundMap st loose) (l : LogicalId) (c : Option (SectorId × Half))
    (hn : ∀ t q, c = some (t, q) → loose t ∧ validImage (st.flash[t]) = some (l, q)) :
    SoundMap { st with current := st.current.set l c } fun j =>
      (loose j ∧ ∀ q, c ≠ some (j, q)) ∨ ∃ q, st.current[l] = some (j, q) := by
  have here : (st.current.set l c)[l] = c := Vector.getElem_set_self l.isLt
  have other : ∀ m : LogicalId, m ≠ l → (st.current.set l c)[m] = st.current[m] := fun m hm =>
    (getElem_set_fin _ _ _ _).trans (if_neg hm)
  have cases : ∀ {m : LogicalId} {j : SectorId} {r : Half}, (st.current.set l c)[m] = some (j, r) →
      (m = l ∧ c = some (j, r) ∧ loose j ∧ validImage (st.flash[j]) = some (l, r)) ∨ m ≠ l ∧ st.current[m] = some (j, r) := by
    intro m j r hc
    by_cases hm : m = l
    · have hcj : c = some (j, r) := by rw [← here, ← hc, hm]
      exact .inl ⟨hm, hcj, hn j r hcj⟩
    · exact .inr ⟨hm, (other m hm).symm.trans hc⟩
  refine ⟨⟨h.map.1, fun m j r hc => ?_, fun m m' j r r' hc hc' => ?_⟩, fun m j r hc => ?_, fun j => ?_, fun j hj => ?_⟩
  · rcases cases hc with ⟨-, -, hl, -⟩ | ⟨-, hc⟩
    · exact ⟨(h.loose j hl).1, (h.loose j hl).2.1⟩
    · exact h.map.2.1 m j r hc
  · rcases cases hc with ⟨hm, -, hl, -⟩ | ⟨-, hold⟩ <;> rcases cases hc' with ⟨hm', -, hl', -⟩ | ⟨-, hold'⟩
    · exact hm.trans hm'.symm
    · exact absurd rfl (h.ne_of_loose hl hold')
    · exact absurd rfl (h.ne_of_loose hl' hold)
    · exact h.map.2.2 m m' j r r' hold hold'
  · rcases cases hc with ⟨rfl, -, -, hv⟩ | ⟨-, hc⟩
    · exact hv
    · exact h.valid m j r hc
  · rcases h.covered j with hl | hb | he | ⟨m, r, hc⟩
    · by_cases hj : ∃ q, c = some (j, q)
      · obtain ⟨q, hq⟩ := hj
        exact .inr (.inr (.inr ⟨l, q, here.trans hq⟩))
      · exact .inl (.inl ⟨hl, not_exists.1 hj⟩)
    · exact .inr (.inl hb)
    · exact .inr (.inr (.inl he))
    · by_cases hm : m = l
      · exact .inl (.inr ⟨r, hm ▸ hc⟩)
      · exact .inr (.inr (.inr ⟨m, r, (other m hm).trans hc⟩))
  · rcases hj with ⟨hl, hne⟩ | ⟨q, hq⟩
    · obtain ⟨he, hb, hnc⟩ := h.loose j hl
      refine ⟨he, hb, ?_⟩
      rintro ⟨m, r, hc⟩
      rcases cases hc with ⟨-, hcj, -⟩ | ⟨-, hc⟩
      · exact hne r hcj
      · exact hnc ⟨m, r, hc⟩
    · refine ⟨h.not_erased_of_current hq, h.not_bad_of_current hq, ?_⟩
      rintro ⟨m, r, hc⟩
      rcases cases hc with ⟨-, -, hl, -⟩ | ⟨hm, hc⟩
      · exact h.ne_of_loose hl hq rfl
      · exact hm (h.map.2.2 m l j r q hc hq)

/-- A current sector is written over without a change of the image that it reads as (R140). -/
theorem SoundMap.overwrite (h : SoundMap st loose) (hc : st.current[l] = some (k, q)) {x : Sector}
    (hx : validImage x = validImage (st.flash[k])) : SoundMap (st.setFlash k x) loose := by
  have flash : ∀ j : SectorId, j ≠ k → (st.setFlash k x).flash[j] = st.flash[j] := fun j hj => getElem_set_other _ hj _
  refine ⟨⟨fun j hj => ⟨h.not_bad_of_erased hj, ?_⟩, h.map.2.1, h.map.2.2⟩, fun m j r hj => ?_, h.covered, h.loose⟩
  · have hjk : j ≠ k := by
      rintro rfl
      exact Bool.false_ne_true ((h.not_erased_of_current hc).symm.trans hj)
    rw [flash j hjk]
    exact h.blank_of_erased hj
  · by_cases hjk : j = k
    · subst hjk
      exact ((congrArg validImage (getElem_set_same _ _ _)).trans hx).trans (h.valid m j r hj)
    · rw [flash j hjk]
      exact h.valid m j r hj

end

/-! ### A shadow that agrees with the flash -/

/-- Agreement reads the current sector of the logical sector and its slots, and nothing else. -/
theorem agrees_congr {st st' : Store} {v w : Vector (Option Binding) 32} {l : LogicalId} (h : Agrees st v l)
    (hc : st'.current[l] = st.current[l])
    (hf : ∀ (k : SectorId) (q : Half), st.current[l] = some (k, q) → st'.flash[k] = st.flash[k])
    (hs : ∀ i, w[shadowSlot l i] = v[shadowSlot l i]) : Agrees st' w l := by
  have hslots : imageSlots w l = imageSlots v l := by
    refine Vector.ext fun i hi => ?_
    rw [imageSlots, imageSlots, Vector.getElem_ofFn, Vector.getElem_ofFn, hs]
  unfold Agrees at h ⊢
  rw [hc]
  cases hx : st.current[l] with
  | none =>
    rw [hx] at h
    exact fun i => (hs i).trans (h i)
  | some x =>
    rw [hx] at h
    change st'.flash[x.1] = programmed l x.2 true (imageSlots w l)
    rw [hf x.1 x.2 hx, hslots]
    exact h

theorem agrees_of_current {st : Store} {v : Vector (Option Binding) 32} {l : LogicalId} {k : SectorId} {q : Half}
    (hc : st.current[l] = some (k, q)) (hf : st.flash[k] = programmed l q true (imageSlots v l)) : Agrees st v l := by
  unfold Agrees
  rw [hc]
  exact hf

theorem agrees_of_none {st : Store} {v : Vector (Option Binding) 32} {l : LogicalId} (hc : st.current[l] = none)
    (hs : ∀ i, v[shadowSlot l i] = none) : Agrees st v l := by
  unfold Agrees
  rw [hc]
  exact hs

theorem agrees_flash {st : Store} {v : Vector (Option Binding) 32} {l : LogicalId} {k : SectorId} {q : Half}
    (h : Agrees st v l) (hc : st.current[l] = some (k, q)) : st.flash[k] = programmed l q true (imageSlots v l) := by
  unfold Agrees at h
  rw [hc] at h
  exact h

/-- Where the shadow agrees with the flash, the current sectors are valid. -/
theorem currentValid_of_agrees {st : Store} {v : Vector (Option Binding) 32} (h : ∀ l, Agrees st v l) : CurrentValid st :=
  fun l k q hc => by rw [agrees_flash (h l) hc, validImage_programmed]

end Sys2Proof.Machine
end

section
/-! PROOFS. The laws of the store (O58): the store is lawful in each stage of the scan, in each step of a rewrite and at rest, and
every operation leads from one of these to another. -/

namespace Sys2Proof.Machine

open Sys2Proof.Safety

/-! ### A current sector replaced -/

/-- The current sector of a logical sector has been replaced, and the sector that was current erased (R138, R140, R148). -/
structure Replaced (st : Store) (l : LogicalId) (c : Option (SectorId × Half)) (st' : Store) : Prop where
  sound : SoundMap st' noSector
  current : st'.current = st.current.set l c
  flash : ∀ j : SectorId, (∀ q, st.current[l] ≠ some (j, q)) → st'.flash[j] = st.flash[j]

theorem Erases.setCurrent {st st' : Store} {k : SectorId} (h : Erases st k st')
    (c : Vector (Option (SectorId × Half)) 4) : Erases { st with current := c } k { st' with current := c } := by
  cases h with
  | blank => exact .blank
  | bad left hv => exact .bad left hv

section
variable {st : Store} {loose : SectorId → Prop} {l : LogicalId} {c : Option (SectorId × Half)}

/-- The sector that was current is erased, and the loose sector, if there is one, takes its place. -/
theorem replaced_erased (h : SoundMap st loose) (hn : ∀ t q, c = some (t, q) → loose t ∧ validImage (st.flash[t]) = some (l, q))
    (hl : ∀ j, loose j → ∃ q, c = some (j, q)) {k : SectorId} {q : Half} (hc : st.current[l] = some (k, q)) {st' : Store}
    (he : Erases st k st') : Replaced st l c { st' with current := st.current.set l c } := by
  have hs := (h.setCurrent l c hn).erase (.inr ⟨q, hc⟩) (he.setCurrent _)
  refine ⟨hs.congr_loose fun j => iff_of_false ?_ id, rfl, fun j hj => he.flash ?_⟩
  · rintro ⟨⟨hlj, hne⟩ | ⟨r, hr⟩, hjk⟩
    · obtain ⟨r, hr⟩ := hl j hlj
      exact hne r hr
    · cases hc.symm.trans hr
      exact hjk rfl
  · rintro rfl
    exact hj q hc

/-- Where no sector was current, the loose sector is the first. -/
theorem replaced_none (h : SoundMap st loose) (hn : ∀ t q, c = some (t, q) → loose t ∧ validImage (st.flash[t]) = some (l, q))
    (hl : ∀ j, loose j → ∃ q, c = some (j, q)) (hc : st.current[l] = none) :
    Replaced st l c { st with current := st.current.set l c } := by
  refine ⟨(h.setCurrent l c hn).congr_loose fun j => iff_of_false ?_ id, rfl, fun j _ => rfl⟩
  rintro (⟨hlj, hne⟩ | ⟨r, hr⟩)
  · obtain ⟨r, hr⟩ := hl j hlj
    exact hne r hr
  · cases hc.symm.trans hr

theorem Replaced.current_self {st' : Store} (h : Replaced st l c st') : st'.current[l] = c := by
  rw [h.current]
  exact Vector.getElem_set_self l.isLt

/-- The other logical sectors agree with the flash as before. -/
theorem Replaced.agrees_other {st' : Store} (h : Replaced st l c st') (hs : SoundMap st loose) {m : LogicalId} (hm : m ≠ l)
    {v w : Vector (Option Binding) 32} (ha : Agrees st v m) (hw : ∀ i, w[shadowSlot m i] = v[shadowSlot m i]) :
    Agrees st' w m := by
  refine agrees_congr ha ?_ (fun k q hk => h.flash k fun r hr => hs.ne_of_current hr hm hk rfl) hw
  rw [h.current]
  exact (getElem_set_fin _ _ _ _).trans (if_neg hm)

end

/-! ### A rewrite in flight -/

/-- What the finished steps of a rewrite have left in its target (R138, R139). -/
def Rewrite.Left (r : Rewrite) (st : Store) (x : Sector) : RewriteStep → Prop
  | .program => x = blankSector
  | .mark => x = programmed r.logical r.seq false (r.slots st)
  | .eraseTarget => x.mark = false
  | .eraseOld _ => x = programmed r.logical r.seq true (r.slots st) ∧ st.current[r.logical] ≠ none

/-- A rewrite in flight over sound sectors, of which its target alone is loose. -/
structure InFlight (st : Store) (r : Rewrite) : Prop where
  sound : SoundMap st (· = r.target)
  seq : r.seq = st.nextSeq r.logical
  target : r.Left st (st.flash[r.target]) r.step
  agrees : ∀ l : LogicalId, (∃ retry, r.step = .eraseOld retry) ∧ l = r.logical ∨ Agrees st (shadowBefore st r) l

theorem inFlight_iff {st : Store} {r : Rewrite} : MapLaw st ∧ RewriteLaw st r ↔ InFlight st r := by
  constructor
  · rintro ⟨hmap, he, hb, hc, hcov, hv, hseq, hstep, hag⟩
    refine ⟨⟨hmap, hv, fun k => ?_, fun k hk => hk ▸ ⟨he, hb, hc⟩⟩, hseq, ?_, hag⟩
    · by_cases hk : k = r.target
      · exact .inl hk
      · exact .inr (hcov k hk)
    · cases hs : r.step <;> (rw [hs] at hstep; exact hstep)
  · rintro ⟨⟨hmap, hv, hcov, hloose⟩, hseq, htarget, hag⟩
    obtain ⟨he, hb, hc⟩ := hloose r.target rfl
    refine ⟨hmap, he, hb, hc, fun k hk => (hcov k).resolve_left hk, hv, hseq, ?_, hag⟩
    cases hs : r.step <;> (rw [hs] at htarget; exact htarget)

theorem InFlight.agrees_of_step {st : Store} {r : Rewrite} (h : InFlight st r) (hs : ∀ b, r.step ≠ .eraseOld b)
    (l : LogicalId) : Agrees st (shadowBefore st r) l :=
  (h.agrees l).resolve_left fun ⟨⟨b, hb⟩, _⟩ => hs b hb

/-! ### Lawful stores -/

/-- The laws of the store, by its state (R127, R128). -/
inductive Lawful (st : Store) : Prop
  | notBegun {i x : Bool} : st.mode = .scanning ⟨.notBegun, i, x⟩ →
      (∀ k : SectorId, st.erased[k] = false ∧ st.bad[k] = false) → (∀ l : LogicalId, st.current[l] = none) →
      (∀ k : BindSlot, st.shadow[k] = none) → Lawful st
  | erasing {todo : List SectorId} {i x : Bool} : st.mode = .scanning ⟨.erasing todo, i, x⟩ → todo.Nodup →
      SoundMap st (· ∈ todo) → Lawful st
  | repairing {todo : List LogicalId} {tried : List SectorId} {i x : Bool} :
      st.mode = .scanning ⟨.repairing todo tried, i, x⟩ → todo.Nodup → SoundMap st noSector →
      (∀ l, l ∈ todo ∨ Agrees st st.shadow l) → Lawful st
  | rewriting {r : Rewrite} : st.mode = .rewriting r → InFlight st r → Lawful st
  | settled : st.mode = st.settledMode → SoundMap st noSector → (∀ l, Agrees st st.shadow l) → Lawful st

theorem settledMode_ready {st : Store} (h : 0 < st.erasedCount) : st.settledMode = .ready := if_pos h

theorem settledMode_degraded {st : Store} (h : st.erasedCount = 0) : st.settledMode = .degraded :=
  if_neg (Nat.not_lt.2 h.le)

theorem soundMap_of_agrees {st : Store} (hmap : MapLaw st) (hcov : ∀ k : SectorId, Covered st k)
    (ha : ∀ l, Agrees st st.shadow l) : SoundMap st noSector :=
  ⟨hmap, currentValid_of_agrees ha, fun k => .inr (hcov k), fun _ => False.elim⟩

theorem lawful_of_storeLaws {s : State} (h : StoreLaws s) : Lawful s.store := by
  obtain ⟨-, hmap, hmode⟩ := h
  cases hm : s.store.mode with
  | ready =>
    rw [hm] at hmode
    obtain ⟨hcount, hcov, ha⟩ := hmode
    exact .settled (hm.trans (settledMode_ready hcount).symm) (soundMap_of_agrees hmap hcov ha) ha
  | degraded =>
    rw [hm] at hmode
    obtain ⟨hcount, hcov, ha⟩ := hmode
    exact .settled (hm.trans (settledMode_degraded hcount).symm) (soundMap_of_agrees hmap hcov ha) ha
  | rewriting r =>
    rw [hm] at hmode
    exact .rewriting hm (inFlight_iff.1 ⟨hmap, hmode⟩)
  | scanning p =>
    rw [hm] at hmode
    obtain ⟨stage, i, x⟩ := p
    cases stage with
    | notBegun =>
      obtain ⟨hsets, hc, hs⟩ := hmode
      exact .notBegun hm hsets hc hs
    | erasing todo =>
      obtain ⟨hn, hv, htodo, hcov⟩ := hmode
      exact .erasing hm hn ⟨hmap, hv, hcov, htodo⟩
    | repairing todo tried =>
      obtain ⟨hn, hv, hcov, ha⟩ := hmode
      exact .repairing hm hn ⟨hmap, hv, fun k => .inr (hcov k), fun _ => False.elim⟩ ha

theorem storeLaws_of_lawful {s : State} (hp : s.power ≠ .running → ∃ i x, s.store.mode = .scanning ⟨.notBegun, i, x⟩)
    (h : Lawful s.store) : StoreLaws s := by
  cases h with
  | notBegun hm hsets hc hs =>
    refine ⟨hp, ⟨fun k hk => ?_, fun l k q hk => ?_, fun l m k q r hk => ?_⟩, ?_⟩
    · cases (hsets k).1.symm.trans hk
    · cases (hc l).symm.trans hk
    · cases (hc l).symm.trans hk
    · rw [hm]
      exact ⟨hsets, hc, hs⟩
  | erasing hm hn hs =>
    refine ⟨hp, hs.map, ?_⟩
    rw [hm]
    exact ⟨hn, hs.valid, hs.loose, hs.covered⟩
  | repairing hm hn hs ha =>
    refine ⟨hp, hs.map, ?_⟩
    rw [hm]
    exact ⟨hn, hs.valid, hs.covered_all, ha⟩
  | rewriting hm h =>
    obtain ⟨hmap, hr⟩ := inFlight_iff.2 h
    refine ⟨hp, hmap, ?_⟩
    rw [hm]
    exact hr
  | settled hm hs ha =>
    refine ⟨hp, hs.map, ?_⟩
    rcases Nat.eq_zero_or_pos s.store.erasedCount with hcount | hcount
    · rw [hm, settledMode_degraded hcount]
      exact ⟨hcount, hs.covered_all, ha⟩
    · rw [hm, settledMode_ready hcount]
      exact ⟨hcount, hs.covered_all, ha⟩

/-- A store in a running part. -/
theorem storeLaws_running {s : State} (hp : s.power = .running) (h : Lawful s.store) : StoreLaws s :=
  storeLaws_of_lawful (fun hn => absurd hp hn) h

theorem storeLaws_congr {s t : State} (hp : t.power = s.power) (hst : t.store = s.store) (hs : StoreLaws s) : StoreLaws t := by
  unfold StoreLaws
  rw [hp, hst]
  exact hs

section
variable {st : Store}

theorem Lawful.begun_erasing (h : Lawful st) {todo : List SectorId} {i x : Bool}
    (hm : st.mode = .scanning ⟨.erasing todo, i, x⟩) : todo.Nodup ∧ SoundMap st (· ∈ todo) := by
  cases h with
  | erasing hm' hn hs =>
    cases hm.symm.trans hm'
    exact ⟨hn, hs⟩
  | settled hm' => rcases st.settledMode_cases with h | h <;> cases hm.symm.trans (hm'.trans h)
  | notBegun hm' => cases hm.symm.trans hm'
  | repairing hm' => cases hm.symm.trans hm'
  | rewriting hm' => cases hm.symm.trans hm'

theorem Lawful.begun_repairing (h : Lawful st) {todo : List LogicalId} {tried : List SectorId} {i x : Bool}
    (hm : st.mode = .scanning ⟨.repairing todo tried, i, x⟩) :
    todo.Nodup ∧ SoundMap st noSector ∧ ∀ l, l ∈ todo ∨ Agrees st st.shadow l := by
  cases h with
  | repairing hm' hn hs ha =>
    cases hm.symm.trans hm'
    exact ⟨hn, hs, ha⟩
  | settled hm' => rcases st.settledMode_cases with h | h <;> cases hm.symm.trans (hm'.trans h)
  | notBegun hm' => cases hm.symm.trans hm'
  | erasing hm' => cases hm.symm.trans hm'
  | rewriting hm' => cases hm.symm.trans hm'

theorem Lawful.inFlight (h : Lawful st) {r : Rewrite} (hm : st.mode = .rewriting r) : InFlight st r := by
  cases h with
  | rewriting hm' h =>
    cases hm.symm.trans hm'
    exact h
  | settled hm' => rcases st.settledMode_cases with h | h <;> cases hm.symm.trans (hm'.trans h)
  | notBegun hm' => cases hm.symm.trans hm'
  | erasing hm' => cases hm.symm.trans hm'
  | repairing hm' => cases hm.symm.trans hm'

theorem Lawful.ready (h : Lawful st) (hm : st.mode = .ready) : SoundMap st noSector ∧ ∀ l, Agrees st st.shadow l := by
  cases h with
  | settled _ hs ha => exact ⟨hs, ha⟩
  | notBegun hm' => cases hm.symm.trans hm'
  | erasing hm' => cases hm.symm.trans hm'
  | repairing hm' => cases hm.symm.trans hm'
  | rewriting hm' => cases hm.symm.trans hm'

/-! ### The scan -/

/-- Right after a hard reset or a loss of supply the sector map and the shadow are empty (R123, R145). -/
theorem lawful_afterReset (flash : Vector Sector 5) : Lawful (Store.afterReset flash) :=
  .notBegun rfl (fun k => ⟨Vector.getElem_replicate k.isLt, Vector.getElem_replicate k.isLt⟩)
    (fun l => Vector.getElem_replicate l.isLt) fun k => Vector.getElem_replicate k.isLt

/-- A store over sound sectors, of which those to erase are loose, scans. -/
theorem lawful_erasing {todo : List SectorId} (hn : todo.Nodup) (hs : SoundMap st (· ∈ todo)) (i x : Bool) :
    Lawful { st with mode := .scanning ⟨.erasing todo, i, x⟩ } :=
  .erasing rfl hn (hs.same rfl rfl rfl rfl)

/-- A store over sound sectors, with repairs outstanding where it disagrees with the shadow, scans. -/
theorem lawful_repairing {todo : List LogicalId} (hn : todo.Nodup) (hs : SoundMap st noSector)
    (ha : ∀ l, l ∈ todo ∨ Agrees st st.shadow l) (tried : List SectorId) (i x : Bool) :
    Lawful { st with mode := .scanning ⟨.repairing todo tried, i, x⟩ } :=
  .repairing rfl hn (hs.same rfl rfl rfl rfl) ha

/-- A store over sound sectors that agree with a shadow is at rest with it. -/
theorem lawful_settled {v : Vector (Option Binding) 32} (hs : SoundMap st noSector) (ha : ∀ l, Agrees st v l)
    (last : LastResult) : Lawful { st with shadow := v, mode := st.settledMode, last := last } :=
  .settled rfl (hs.same rfl rfl rfl rfl) ha

/-- The scan begins over sound sectors, of which those to erase are loose (R146). -/
theorem lawful_beginScan (hb : ∀ k : SectorId, st.bad[k] = false) : Lawful st.beginScan := by
  have not_erased : ∀ {k : SectorId}, st.flash[k] ≠ blankSector → st.beginScan.erased[k] = false := fun h =>
    eq_false_of_ne_true fun he => h ((beginScan_erased st _).1 he)
  refine .erasing rfl (nodup_sectorsToErase st.flash) ⟨⟨fun k hk => ⟨hb k, (beginScan_erased st k).1 hk⟩,
    fun l k q hk => ⟨not_erased (ne_blank_of_validImage (validImage_of_keptMap hk)), hb k⟩, fun l m k q r hk hk' => ?_⟩,
    fun l k q => validImage_of_keptMap, fun k => ?_, fun k hk => ?_⟩
  · cases (validImage_of_keptMap hk).symm.trans (validImage_of_keptMap hk')
    rfl
  · by_cases hblank : st.flash[k] = blankSector
    · exact .inr (.inr (.inl ((beginScan_erased st k).2 hblank)))
    · by_cases hc : IsCurrent st.beginScan k
      · exact .inr (.inr (.inr hc))
      · exact .inl (mem_sectorsToErase.2 ⟨hblank, hc⟩)
  · obtain ⟨hblank, hc⟩ := mem_sectorsToErase.1 hk
    exact ⟨not_erased hblank, hb k, hc⟩

/-- The scan erases the next sector (R146). -/
theorem Lawful.eraseNext (h : Lawful st) {k : SectorId} {rest : List SectorId} {i x : Bool}
    (hm : st.mode = .scanning ⟨.erasing (k :: rest), i, x⟩) (reads : Sector) :
    Lawful { st.eraseSector k reads with mode := .scanning ⟨.erasing rest, i, true⟩ } := by
  obtain ⟨hn, hs⟩ := h.begun_erasing hm
  obtain ⟨hk, hrest⟩ := List.nodup_cons.1 hn
  have hs' := hs.erase List.mem_cons_self (erases_eraseSector st k reads)
  have hloose : ∀ j, (j ∈ k :: rest ∧ j ≠ k) ↔ j ∈ rest := fun j => by
    rw [List.mem_cons]
    exact ⟨fun ⟨hj, hne⟩ => hj.resolve_left hne, fun hj => ⟨.inr hj, fun he => hk (he ▸ hj)⟩⟩
  exact lawful_erasing hrest (hs'.congr_loose hloose) i true

/-- After the erases the shadow is loaded, and what is to be repaired is known (R147). -/
theorem Lawful.afterErases (h : Lawful st) : Lawful st.afterErases := by
  rcases st.afterErases_cases with he | ⟨i, x, -, -, hm, -⟩
  · rwa [he]
  · obtain ⟨-, hs⟩ := h.begun_erasing hm
    have hs' := hs.congr_loose (loose' := noSector) fun k => by simp [noSector]
    rw [afterErases_erasing hm]
    refine .repairing rfl ((List.nodup_finRange 4).filter _) (hs'.same rfl rfl rfl rfl) fun l => ?_
    by_cases hl : l ∈ st.loadShadow.repairs
    · exact .inl hl
    · exact .inr (agrees_loadShadow hs.valid hl)

theorem Store.giveUpLogical_none {l : LogicalId} (h : st.current[l] = none) (erase : Sector) :
    st.giveUpLogical l erase = { st with current := st.current.set l none, shadow := emptyLogical st.shadow l } := by
  unfold Store.giveUpLogical
  rw [h]

theorem Store.repaired_none {l : LogicalId} (h : st.current[l] = none) (t : SectorId) (q : Half) (erase retry : Sector) :
    st.repaired l t q erase retry = { st with current := st.current.set l (some (t, q)) } := by
  unfold Store.repaired
  rw [h]

theorem replaced_giveUpLogical (h : SoundMap st noSector) (l : LogicalId) (erase : Sector) :
    Replaced st l none (st.giveUpLogical l erase) := by
  cases hc : st.current[l] with
  | none =>
    rw [Store.giveUpLogical_none hc]
    have hr := replaced_none h (c := none) (fun _ _ => nofun) (fun _ => False.elim) hc
    exact ⟨hr.sound.same rfl rfl rfl rfl, hr.current, hr.flash⟩
  | some c =>
    rw [Store.giveUpLogical_some hc]
    have hr := replaced_erased h (c := none) (fun _ _ => nofun) (fun _ => False.elim) hc (erases_eraseSector st c.1 erase)
    exact ⟨hr.sound.same rfl rfl rfl rfl, hr.current, hr.flash⟩

theorem replaced_repaired {l : LogicalId} {t : SectorId} {q : Half} (h : SoundMap st (· = t))
    (hv : validImage (st.flash[t]) = some (l, q)) (erase retry : Sector) :
    Replaced st l (some (t, q)) (st.repaired l t q erase retry) := by
  have hn : ∀ j r, some (t, q) = some (j, r) → j = t ∧ validImage (st.flash[j]) = some (l, r) := by
    rintro j r ⟨⟩
    exact ⟨rfl, hv⟩
  have hl : ∀ j, j = t → ∃ r, some (t, q) = some (j, r) := fun j hj => ⟨q, by rw [hj]⟩
  cases hc : st.current[l] with
  | none =>
    rw [Store.repaired_none hc]
    exact replaced_none h hn hl hc
  | some c =>
    rw [Store.repaired_some hc]
    exact replaced_erased h hn hl hc (erases_eraseTwice st c.1 erase retry)

theorem Store.giveUpLogical_shadow (st : Store) (l : LogicalId) (erase : Sector) :
    (st.giveUpLogical l erase).shadow = emptyLogical st.shadow l := by
  cases hc : st.current[l] with
  | none => rw [Store.giveUpLogical_none hc]
  | some c => rw [Store.giveUpLogical_some hc]

/-- The target of a repair is the only loose sector while it is written. -/
theorem soundMap_targetWritten (h : SoundMap st noSector) {t : SectorId} (he : st.erased[t] = true) (x : Sector) :
    SoundMap (st.targetWritten t x) (· = t) :=
  ((h.take he).congr_loose (loose' := (· = t)) fun j => by simp [noSector]).write rfl x

theorem agrees_targetWritten (h : SoundMap st noSector) {t : SectorId} (he : st.erased[t] = true) (x : Sector)
    {v : Vector (Option Binding) 32} {m : LogicalId} (ha : Agrees st v m) : Agrees (st.targetWritten t x) v m := by
  refine agrees_congr ha rfl (fun k q hk => getElem_set_other _ ?_ _) fun i => rfl
  rintro rfl
  exact h.not_current_of_erased he ⟨m, q, hk⟩

/-- One repair (R148). -/
theorem Lawful.repairStep (h : Lawful st) {l : LogicalId} {rest : List LogicalId} {tried : List SectorId} {i x : Bool}
    (hm : st.mode = .scanning ⟨.repairing (l :: rest) tried, i, x⟩) (image : Sector) (mark : Bool) (erase retry : Sector) :
    Lawful (st.repairStep l rest tried i image mark erase retry) := by
  obtain ⟨hn, hs, ha⟩ := h.begun_repairing hm
  obtain ⟨hl, hrest⟩ := List.nodup_cons.1 hn
  have others : ∀ m, m ≠ l → m ∈ rest ∨ Agrees st st.shadow m := fun m hml =>
    (ha m).imp_left fun hmem => (List.mem_cons.1 hmem).resolve_left hml
  cases ht : st.nextTarget tried with
  | none =>
    rw [Store.repairStep_givesUp ht]
    have hr := replaced_giveUpLogical hs l erase
    have hshadow := st.giveUpLogical_shadow l erase
    refine lawful_repairing hrest hr.sound (fun m => ?_) [] i true
    rw [hshadow]
    by_cases hml : m = l
    · subst hml
      exact .inr (agrees_of_none hr.current_self fun i =>
        (getElem_emptyLogical _ _ _).trans (if_pos (logicalOf_shadowSlot m i)))
    · refine (others m hml).imp_right fun ham => hr.agrees_other hs hml ham fun i => ?_
      rw [getElem_emptyLogical, logicalOf_shadowSlot, if_neg hml]
  | some t =>
    have he : st.erased[t] = true := (nextTarget_eq_some ht).1
    have hnt : ∀ {m : LogicalId} {k : SectorId} {q : Half}, st.current[m] = some (k, q) → k ≠ t := by
      rintro m k q hk rfl
      exact hs.not_current_of_erased he ⟨m, q, hk⟩
    by_cases hi : { image with mark := false } = programmed l (st.nextSeq l) false (imageSlots st.shadow l) ∧ mark = true
    · rw [Store.repairStep_stands ht hi.1 hi.2]
      have hw := soundMap_targetWritten hs he (programmed l (st.nextSeq l) true (imageSlots st.shadow l))
      have hflash : (st.targetWritten t (programmed l (st.nextSeq l) true (imageSlots st.shadow l))).flash[t] =
          programmed l (st.nextSeq l) true (imageSlots st.shadow l) := getElem_set_same _ _ _
      have hr := replaced_repaired hw (by rw [hflash, validImage_programmed]) erase retry
      have hshadow := (st.targetWritten t (programmed l (st.nextSeq l) true (imageSlots st.shadow l))).repaired_shadow l t
        (st.nextSeq l) erase retry
      refine lawful_repairing hrest hr.sound (fun m => ?_) [] i true
      rw [hshadow]
      by_cases hml : m = l
      · subst hml
        refine .inr (agrees_of_current hr.current_self ((hr.flash t fun q hq => ?_).trans hflash))
        exact hnt hq rfl
      · exact (others m hml).imp_right fun ham => hr.agrees_other hw hml (agrees_targetWritten hs he _ ham) fun i => rfl
    · rw [Store.repairStep_fails ht hi]
      have hw := soundMap_targetWritten hs he { image with mark := false }
      have hx := erases_eraseSector (st.targetWritten t { image with mark := false }) t erase
      have hs' := (hw.erase rfl hx).congr_loose (loose' := noSector) fun j => iff_of_false (fun hj => hj.2 hj.1) id
      refine lawful_repairing hn hs' (fun m => (ha m).imp_right fun ham => ?_) (t :: tried) i true
      rw [hx.shadow]
      refine agrees_congr (agrees_targetWritten hs he _ ham) ?_ (fun k q hk => hx.flash (hnt hk)) fun i => rfl
      rw [hx.current]

/-- The scan ends with nothing left to repair (R149). -/
theorem Lawful.endScan (h : Lawful st) {tried : List SectorId} {i x : Bool}
    (hm : st.mode = .scanning ⟨.repairing [] tried, i, x⟩) (o : LastResult) :
    Lawful { st with mode := st.settledMode, last := o } := by
  obtain ⟨-, hs, ha⟩ := h.begun_repairing hm
  exact lawful_settled hs (fun l => (ha l).resolve_left (by simp)) o

end

end Sys2Proof.Machine
end

section
/-! PROOFS. The laws of the store (O58), continued: the beginning, the steps and the outcomes of a rewrite, and every command. -/

namespace Sys2Proof.Machine

open Sys2Proof.Safety

/-! ### The pending change and the shadow (R124, R134, R135, R137) -/

/-- An outcome writes no slot but that of its change. -/
theorem settle_other (c : Change) (success : Bool) (v : Vector (Option Binding) 32) {k : BindSlot} (h : k ≠ c.slot) :
    (c.settle success v)[k] = v[k] := by
  cases c with
  | bind j before after old =>
    cases success with
    | true => rfl
    | false => exact (getElem_shadow_set _ _ _ _).trans (if_neg h)
  | unbind j before =>
    cases success with
    | true => exact (getElem_shadow_set _ _ _ _).trans (if_neg h)
    | false => rfl

/-- The shadow after a success is the one that the image was taken from. -/
theorem settle_success {st : Store} (hl : ChangeLaw st) {r : Rewrite} (hm : st.mode = .rewriting r) :
    r.change.settle true st.shadow = st.shadow.set r.change.slot r.change.after := by
  have hr := hl r hm
  obtain ⟨change, target, seq, step⟩ := r
  cases change with
  | bind k before after old =>
    change st.shadow = st.shadow.set k (some after)
    rw [← hr.1]
    exact (Vector.set_getElem_self k.isLt).symm
  | unbind k before => rfl

theorem shadowSlot_ne_slot {r : Rewrite} {l : LogicalId} (h : l ≠ r.logical) (i : Fin 8) : shadowSlot l i ≠ r.change.slot := by
  intro he
  rw [Rewrite.logical, ← he, logicalOf_shadowSlot] at h
  exact h rfl

/-! ### A rewrite begins -/

section
variable {st : Store} {r : Rewrite}

/-- A rewrite begins with a blank target, over a store that agrees with the shadow before it (R131, R136, R138 step 1). -/
theorem lawful_beginRewrite (h : Lawful st) (hm : st.mode = .ready) {target : SectorId}
    (ht : st.lowestErased = some target) {c : Change} {v : Vector (Option Binding) 32} (hv : c.settle false v = st.shadow) :
    Lawful { st.beginRewrite c target with shadow := v } := by
  obtain ⟨hs, ha⟩ := h.ready hm
  have he : st.erased[target] = true := (find?_finRange_eq_some_iff.1 ht).1
  have hs' := (hs.take he).congr_loose (loose' := (· = target)) fun j => by simp [noSector]
  refine .rewriting rfl ⟨hs'.same rfl rfl rfl rfl, rfl, hs.blank_of_erased he, fun l => .inr ?_⟩
  change Agrees _ (c.settle false v) l
  rw [hv]
  exact agrees_congr (ha l) rfl (fun k q _ => rfl) fun i => rfl

theorem lawful_boundStore {s : State} (h : Lawful s.store) (hm : s.store.mode = .ready) {target : SectorId}
    (ht : s.store.lowestErased = some target) (k : BindSlot) (b : BindParams) : Lawful (s.boundStore k b target) := by
  refine lawful_beginRewrite h hm ht ?_
  change (s.store.shadow.set k (some ⟨b.tag, b.addr, b.cls⟩)).set k (s.store.shadow[k]) = s.store.shadow
  simp

theorem lawful_beginUnbind {s : State} (h : Lawful s.store) (hm : s.store.mode = .ready) {target : SectorId}
    (ht : s.store.lowestErased = some target) (k : BindSlot) (b : Binding) :
    Lawful (s.store.beginRewrite (.unbind k b) target) :=
  lawful_beginRewrite (c := .unbind k b) (v := s.store.shadow) h hm ht rfl

/-! ### A rewrite goes on -/

/-- Before the erase of the old image, a rewrite goes on over what is written to its target (R138, R139). -/
theorem InFlight.goes (h : InFlight st r) (hs : ∀ b, r.step ≠ .eraseOld b) {st' : Store} (hsound : SoundMap st' (· = r.target))
    (hc : st'.current = st.current) (hsh : st'.shadow = st.shadow)
    (hf : ∀ k : SectorId, k ≠ r.target → st'.flash[k] = st.flash[k]) {step : RewriteStep}
    (hx : r.Left st' (st'.flash[r.target]) step) : Lawful (st'.toStep r step) := by
  have hseq : r.seq = st'.nextSeq r.logical := by
    rw [h.seq, Store.nextSeq, Store.nextSeq, hc]
  refine .rewriting (r := { r with step := step }) rfl ⟨hsound.same rfl rfl rfl rfl, hseq, ?_, fun l => .inr ?_⟩
  · cases step <;> exact hx
  · refine agrees_congr (h.agrees_of_step hs l) ?_ (fun k q hk => hf k (h.sound.ne_of_loose rfl hk)) fun i => ?_
    · change st'.current[l] = _
      rw [hc]
    · change (r.change.settle false st'.shadow)[_] = (r.change.settle false st.shadow)[_]
      rw [hsh]

/-- The target is written, and the rewrite goes on. -/
theorem InFlight.write_goes (h : InFlight st r) (hs : ∀ b, r.step ≠ .eraseOld b) {x : Sector} {step : RewriteStep}
    (hx : r.Left st x step) : Lawful ((st.setFlash r.target x).toStep r step) := by
  have hflash : (st.setFlash r.target x).flash[r.target] = x := getElem_set_same _ _ _
  refine h.goes hs (h.sound.write rfl x) rfl rfl (fun k hk => getElem_set_other _ hk _) ?_
  rw [hflash]
  cases step <;> exact hx

/-- The first erase of the old image fails, and is tried once more (R140). -/
theorem InFlight.retry (h : InFlight st r) {b : Bool} (hs : r.step = .eraseOld b) {k : SectorId} {q : Half}
    (hc : st.current[r.logical] = some (k, q)) (reads : Sector) :
    Lawful ((st.setFlash k (eraseFailed (st.flash[k]) reads)).toStep r (.eraseOld true)) := by
  have hsound := h.sound.overwrite hc (validImage_eraseFailed (st.flash[k]) reads)
  have htarget := h.target
  rw [hs] at htarget
  refine .rewriting (r := { r with step := .eraseOld true }) rfl ⟨hsound.same rfl rfl rfl rfl, h.seq, ⟨?_, htarget.2⟩, fun l => ?_⟩
  · exact (getElem_set_other _ (h.sound.ne_of_loose rfl hc).symm _).trans htarget.1
  · by_cases hl : l = r.logical
    · exact .inl ⟨⟨true, rfl⟩, hl⟩
    · refine .inr (agrees_congr ((h.agrees l).resolve_left fun he => hl he.2) rfl (fun j p hj => ?_) fun i => rfl)
      exact getElem_set_other _ (h.sound.ne_of_current hc hl hj) _

/-! ### A rewrite ends -/

/-- After a success the target stands for its logical sector, and the flash agrees with the shadow (R134, R137, R138). -/
theorem InFlight.succeeds (h : InFlight st r) (hl : ChangeLaw st) (hm : st.mode = .rewriting r) {st₀ st' : Store}
    (hsound : SoundMap st₀ (· = r.target)) (hc : st₀.current = st.current)
    (hf : ∀ k : SectorId, k ≠ r.target → st₀.flash[k] = st.flash[k])
    (ht : st₀.flash[r.target] = programmed r.logical r.seq true (r.slots st))
    (hr : Replaced st₀ r.logical (some (r.target, r.seq)) st') (l : LogicalId) :
    Agrees st' (r.change.settle true st.shadow) l := by
  by_cases hlog : l = r.logical
  · subst hlog
    refine agrees_of_current hr.current_self ((hr.flash _ fun q hq => hsound.ne_of_loose rfl hq rfl).trans (ht.trans ?_))
    rw [settle_success hl hm, Rewrite.slots]
  · have hold : Agrees st₀ (shadowBefore st r) l := by
      refine agrees_congr ((h.agrees l).resolve_left fun he => hlog he.2) ?_
        (fun k q hk => hf k (h.sound.ne_of_loose rfl hk)) fun i => rfl
      rw [hc]
    refine hr.agrees_other hsound hlog hold fun i => ?_
    rw [shadowBefore, settle_other _ _ _ (shadowSlot_ne_slot hlog i), settle_other _ _ _ (shadowSlot_ne_slot hlog i)]

/-- The store of an outcome is lawful where its sectors are sound and agree with the shadow that the outcome leaves. -/
theorem lawful_outcome {st' : Store} (o : RewriteOutcome) (hsh : st'.shadow = st.shadow) (hs : SoundMap st' noSector)
    (ha : ∀ l, Agrees st' (r.change.settle (o != .failed) st.shadow) l) : Lawful (st'.settled r o) := by
  rw [← hsh] at ha
  exact lawful_settled hs ha (r.change.result o)

/-- The loose target becomes current. -/
theorem target_standing {v : Sector} (hv : v = programmed r.logical r.seq true (r.slots st)) {j : SectorId} {q : Half}
    {st₀ : Store} (hf : st₀.flash[r.target] = v) (h : some (r.target, r.seq) = some (j, q)) :
    j = r.target ∧ validImage (st₀.flash[j]) = some (r.logical, q) := by
  cases h
  exact ⟨rfl, by rw [hf, hv, validImage_programmed]⟩

/-- The first image of a logical sector stands with its mark (R138 step 3). -/
theorem InFlight.lawful_first (h : InFlight st r) (hl : ChangeLaw st) (hm : st.mode = .rewriting r) (hs : r.step = .mark)
    (hc : st.current[r.logical] = none) :
    Lawful (((st.setFlash r.target { st.flash[r.target] with mark := true }).adoptTarget r).settled r .done) := by
  have htarget : st.flash[r.target] = programmed r.logical r.seq false (r.slots st) := by
    have := h.target
    rwa [hs] at this
  have hsound := h.sound.write rfl { st.flash[r.target] with mark := true }
  have hflash : (st.setFlash r.target { st.flash[r.target] with mark := true }).flash[r.target] =
      programmed r.logical r.seq true (r.slots st) := by
    refine (getElem_set_same _ _ _).trans ?_
    rw [htarget]
    rfl
  have hr := replaced_none hsound (fun j q => target_standing rfl hflash) (fun j hj => ⟨r.seq, by rw [hj]⟩) hc
  exact lawful_outcome (st := st) .done rfl hr.sound
    (h.succeeds hl hm hsound rfl (fun k hk => getElem_set_other _ hk _) hflash hr)

/-- The old image is erased or bad, and the new one stands (R138 step 4, R140). -/
theorem InFlight.lawful_replaced (h : InFlight st r) (hl : ChangeLaw st) (hm : st.mode = .rewriting r) {b : Bool}
    (hs : r.step = .eraseOld b) {k : SectorId} {q : Half} (hc : st.current[r.logical] = some (k, q)) (reads : Sector)
    {o : RewriteOutcome} (ho : (o != .failed) = true) :
    Lawful (((st.eraseSector k reads).adoptTarget r).settled r o) := by
  have htarget : st.flash[r.target] = programmed r.logical r.seq true (r.slots st) := by
    have := h.target
    rw [hs] at this
    exact this.1
  have hr := replaced_erased h.sound (fun j q => target_standing rfl htarget) (fun j hj => ⟨r.seq, by rw [hj]⟩) hc
    (erases_eraseSector st k reads)
  have hadopt : (st.eraseSector k reads).adoptTarget r =
      { st.eraseSector k reads with current := st.current.set r.logical (some (r.target, r.seq)) } := by
    rw [Store.adoptTarget, Store.eraseSector_current]
  rw [hadopt]
  refine lawful_outcome (st := st) o (Store.eraseSector_shadow _ _ _) hr.sound ?_
  rw [ho]
  exact h.succeeds hl hm h.sound rfl (fun _ _ => rfl) htarget hr

/-- The failed target is erased or bad, and everything else stands as before (R139). -/
theorem InFlight.lawful_failed (h : InFlight st r) (hs : r.step = .eraseTarget) (reads : Sector) :
    Lawful ((st.eraseSector r.target reads).settled r .failed) := by
  have he := erases_eraseSector st r.target reads
  refine lawful_outcome (st := st) .failed (Store.eraseSector_shadow _ _ _)
    ((h.sound.erase rfl he).congr_loose fun j => iff_of_false (fun hj => hj.2 hj.1) id) fun l => ?_
  refine agrees_congr (h.agrees_of_step (by simp [hs]) l) ?_ (fun k q hk => he.flash (h.sound.ne_of_loose rfl hk)) fun i => rfl
  rw [he.current]

end

/-! ### Every command -/

/-- A rewrite that ends leaves its settled store. -/
theorem storeLaws_rewriteOutcome {s : State} (hp : s.power = .running) {st : Store} {r : Rewrite} {o : RewriteOutcome}
    (h : Lawful (st.settled r o)) : StoreLaws ((s.withStore st).rewriteOutcome r o) := by
  have hf := (moves_rewriteOutcome (.bind []) (s.withStore st) r o).frame
  exact storeLaws_running (hf.power.trans hp) (hf.store ▸ h)

/-- What is said of the running part holds of every event of it. -/
theorem storeLaws_whenRunning {f : State → State} {s t : State} (h : whenRunning f s = .next t) (hs : StoreLaws s)
    (hf : s.power = .running → StoreLaws (f s)) : StoreLaws t := by
  rcases whenRunning_next h with ⟨-, rfl⟩ | ⟨hp, rfl⟩
  · exact hs
  · exact hf hp

theorem storeLaws_scanSectorErase {reads : Sector} {s t : State} (hs : StoreLaws s)
    (h : execScanSectorErase reads s = .next t) : StoreLaws t := by
  refine storeLaws_whenRunning h hs fun hp => ?_
  split
  · rename_i hm
    exact storeLaws_running hp ((lawful_of_storeLaws hs).eraseNext hm reads)
  · exact hs

theorem storeLaws_scanRepair {image : Sector} {mark : Bool} {erase retry : Sector} {s t : State} (hs : StoreLaws s)
    (h : execScanRepair image mark erase retry s = .next t) : StoreLaws t := by
  refine storeLaws_whenRunning h hs fun hp => ?_
  split
  · rename_i hm
    exact storeLaws_running hp ((lawful_of_storeLaws hs).afterErases.repairStep hm image mark erase retry)
  · exact hs

theorem storeLaws_scanEnd {s t : State} (hs : StoreLaws s) (h : execScanEnd s = .next t) : StoreLaws t := by
  refine storeLaws_whenRunning h hs fun hp => ?_
  split
  · rename_i hm
    exact storeLaws_running hp ((lawful_of_storeLaws hs).afterErases.endScan hm _)
  · exact hs

theorem storeLaws_imageProgram {reads : Sector} {s t : State} (hs : StoreLaws s)
    (h : execImageProgram reads s = .next t) : StoreLaws t := by
  refine storeLaws_whenRunning h hs fun hp => ?_
  split
  · rename_i r hm
    split
    · rename_i hstep
      refine storeLaws_running hp (((lawful_of_storeLaws hs).inFlight hm).write_goes (by simp [hstep]) ?_)
      split
      · rename_i hright
        rw [decide_eq_true_eq] at hright
        exact hright
      · rfl
    · exact hs
  · exact hs

theorem storeLaws_validMark {reads : Bool} {s t : State} (hl : ChangeLaw s.store) (hs : StoreLaws s)
    (h : execValidMark reads s = .next t) : StoreLaws t := by
  refine storeLaws_whenRunning h hs fun hp => ?_
  split
  · rename_i r hm
    have hr := (lawful_of_storeLaws hs).inFlight hm
    split
    · rename_i hstep
      have htarget : s.store.flash[r.target] = programmed r.logical r.seq false (r.slots s.store) := by
        have := hr.target
        rwa [hstep] at this
      split
      · dsimp only
        split
        · rename_i hc
          refine storeLaws_running hp (hr.write_goes (by simp [hstep]) ⟨?_, by simp [hc]⟩)
          rw [htarget]
          rfl
        · rename_i hc
          exact storeLaws_rewriteOutcome hp (hr.lawful_first hl hm hstep hc)
      · refine storeLaws_running hp (hr.goes (by simp [hstep]) hr.sound rfl rfl (fun _ _ => rfl) ?_)
        rw [htarget]
        rfl
    · exact hs
  · exact hs

theorem storeLaws_targetErase {reads : Sector} {s t : State} (hs : StoreLaws s)
    (h : execTargetErase reads s = .next t) : StoreLaws t := by
  refine storeLaws_whenRunning h hs fun hp => ?_
  split
  · rename_i r hm
    split
    · rename_i hstep
      exact storeLaws_rewriteOutcome hp (((lawful_of_storeLaws hs).inFlight hm).lawful_failed hstep reads)
    · exact hs
  · exact hs

theorem spareOutcome_ne_failed (st : Store) : (st.spareOutcome != .failed) = true := by
  unfold Store.spareOutcome
  split <;> rfl

theorem storeLaws_supersededErase {reads : Sector} {s t : State} (hl : ChangeLaw s.store) (hs : StoreLaws s)
    (h : execSupersededErase reads s = .next t) : StoreLaws t := by
  refine storeLaws_whenRunning h hs fun hp => ?_
  split
  · rename_i r hm
    have hr := (lawful_of_storeLaws hs).inFlight hm
    split
    · rename_i retry k q hstep hc
      split
      · exact storeLaws_rewriteOutcome hp (hr.lawful_replaced hl hm hstep hc blankSector rfl)
      · split
        · exact storeLaws_rewriteOutcome hp (hr.lawful_replaced hl hm hstep hc reads (spareOutcome_ne_failed _))
        · exact storeLaws_running hp (hr.retry hstep hc reads)
    · exact hs
  · exact hs

/-- The target of an accepted Bind is the lowest erased sector (R138 step 1). -/
theorem State.bind_accepts (s : State) (b : BindParams) : (s.bind b).state = s ∨
    ∃ k target, s.store.mode = .ready ∧ s.store.lowestErased = some target ∧ (s.bind b).state = s.acceptBind k b target := by
  unfold State.bind
  split
  case h_4 hm =>
    dsimp only
    split
    · exact .inl rfl
    split
    · exact .inl rfl
    split
    · exact .inl rfl
    split
    · exact .inl rfl
    split
    · exact .inl rfl
    split
    · exact .inl rfl
    split
    · exact .inl rfl
    · exact .inr ⟨_, _, hm, ‹_›, rfl⟩
  all_goals exact .inl rfl

/-- The target of an accepted Unbind is the lowest erased sector (R138 step 1). -/
theorem State.unbind_accepts (s : State) (t : Tag) : (s.unbind t).state = s ∨ ∃ k b target, s.store.mode = .ready ∧
    s.store.lowestErased = some target ∧ (s.unbind t).state = s.withStore (s.store.beginRewrite (.unbind k b) target) := by
  unfold State.unbind
  split
  case h_4 hm =>
    split
    · split
      · exact .inl rfl
      split
      · exact .inl rfl
      · exact .inr ⟨_, _, _, hm, ‹_›, rfl⟩
    · exact .inl rfl
  all_goals exact .inl rfl

theorem storeLaws_bind {ps : List Byte} {s t : State} (hs : StoreLaws s) (h : execBind ps s = .next t) : StoreLaws t := by
  rcases serve_next h with rfl | ⟨⟨hp, -⟩, rfl⟩
  · exact hs
  · refine storeLaws_congr (s := (ownBind ps s).state) rfl rfl ?_
    unfold ownBind
    split
    · rename_i b _
      rcases s.bind_accepts b with he | ⟨k, target, hm, ht, he⟩
      · rw [he]
        exact hs
      · have hf := (moves_acceptBind (.bind []) s k b target).frame
        rw [he]
        exact storeLaws_running (hf.power.trans hp) (hf.store ▸ lawful_boundStore (lawful_of_storeLaws hs) hm ht k b)
    · exact hs

theorem storeLaws_unbind {ps : List Byte} {s t : State} (hs : StoreLaws s) (h : execUnbind ps s = .next t) : StoreLaws t := by
  rcases serve_next h with rfl | ⟨⟨hp, -⟩, rfl⟩
  · exact hs
  · refine storeLaws_congr (s := (ownUnbind ps s).state) rfl rfl ?_
    unfold ownUnbind
    split
    · rcases s.unbind_accepts (tagOfBytes ps) with he | ⟨k, b, target, hm, ht, he⟩
      · rw [he]
        exact hs
      · rw [he]
        exact storeLaws_running hp (lawful_beginUnbind (lawful_of_storeLaws hs) hm ht k b)
    · exact hs

/-- Outside the running part the scan has not begun, and no sector is bad. -/
theorem not_bad_of_storeLaws {s : State} (hs : StoreLaws s) (hp : s.power ≠ .running) (k : SectorId) :
    s.store.bad[k] = false := by
  obtain ⟨hpower, -, hmode⟩ := hs
  obtain ⟨i, x, hm⟩ := hpower hp
  rw [hm] at hmode
  exact (hmode.1 k).2

theorem storeLaws_volatileLost (s : State) {p : Power} (fast : Bool) (cut : FlashCut) :
    StoreLaws (s.volatileLost p fast cut) :=
  storeLaws_of_lawful (fun _ => ⟨false, false, rfl⟩) (lawful_afterReset _)

theorem storeLaws_powerLoss {cut : FlashCut} {s t : State} (hs : StoreLaws s) (h : execPowerLoss cut s = .next t) :
    StoreLaws t := by
  cases h
  split
  · exact hs
  · exact storeLaws_volatileLost s _ cut

theorem storeLaws_hardResetEnd {s t : State} (hs : StoreLaws s) (h : execHardResetEnd s = .next t) : StoreLaws t := by
  cases h
  split
  · rename_i hp
    exact storeLaws_running rfl (lawful_beginScan fun k => not_bad_of_storeLaws hs (by simp [hp]) k)
  · exact hs

theorem storeLaws_restart {ps : List Byte} {sent : Nat} {outbid : Bool} {s t : State} (hs : StoreLaws s)
    (h : execRestart ps sent outbid s = .next t) : StoreLaws t := by
  rcases serve_next h with rfl | ⟨-, rfl⟩
  · exact hs
  · unfold withoutParams
    split <;> exact storeLaws_congr (s := s) rfl rfl hs

/-- A command that does not touch the store keeps its laws. -/
theorem storeLaws_untouched {c : Instr} {s t : State} (h : exec c s = .next t) (hs : StoreLaws s)
    (hr : isReset c = false) (he : c ≠ .hardResetEnd) (hc : touchesStore c = false) : StoreLaws t := by
  obtain ⟨hp, st, u, hst, -, hm, -, hu⟩ := (exec_effect s hr he).leads h
  refine storeLaws_congr hp ?_ hs
  rw [hu, hm.frame.store, hst hc]
  rfl

/-- Every command keeps the laws of the store. -/
theorem exec_storeLaws {c : Instr} {s t : State} (hl : ChangeLaw s.store) (hs : StoreLaws s) (h : exec c s = .next t) :
    StoreLaws t := by
  cases c with
  | hardReset spd cut =>
    cases h
    exact storeLaws_volatileLost s _ cut
  | powerLoss cut => exact storeLaws_powerLoss hs h
  | hardResetEnd => exact storeLaws_hardResetEnd hs h
  | scanSectorErase reads => exact storeLaws_scanSectorErase hs h
  | scanRepair image mark erase retry => exact storeLaws_scanRepair hs h
  | scanEnd => exact storeLaws_scanEnd hs h
  | bind ps => exact storeLaws_bind hs h
  | unbind ps => exact storeLaws_unbind hs h
  | imageProgram reads => exact storeLaws_imageProgram hs h
  | validMark reads => exact storeLaws_validMark hl hs h
  | targetErase reads => exact storeLaws_targetErase hs h
  | supersededErase reads => exact storeLaws_supersededErase hl hs h
  | restart ps sent outbid => exact storeLaws_restart hs h
  | _ => exact storeLaws_untouched h hs rfl nofun rfl

/-- Settles O58: the store stays lawful through every command, and the millisecond does not reach it. -/
theorem storeLawsAreKept : Obligations.StoreLawsAreKept := by
  unfold Obligations.StoreLawsAreKept
  intro s t hb hs h
  rcases step_cases h with ⟨-, rfl⟩ | ⟨c, rest, -, hc⟩
  · have hf := (moves_millisecond (.expiry 0) s).frame
    exact storeLaws_congr hf.power hf.store hs
  · exact exec_storeLaws (s := s.withPending rest) hb.2.1 (storeLaws_congr (s := s) rfl rfl hs) hc

end Sys2Proof.Machine
end

section
/-! PROOFS. The checks of a Bind (O48), the checks and the acceptance of an Unbind, and Binding Read (O49). -/

namespace Sys2Proof.Machine

open Sys2Proof.Safety

/-! ### The parameters of a Bind (R130 check 1) -/

theorem forceOfByte_eq_some {f : Byte} {b : Bool} (h : forceOfByte f = some b) : f.toNat < 2 := by
  unfold forceOfByte at h
  split at h
  · rename_i hf
    rw [hf]
    decide
  · split at h
    · rename_i hf
      rw [hf]
      decide
    · cases h

theorem forceOfByte_of_lt {f : Byte} (h : f.toNat < 2) : forceOfByte f = some (decide (f = 1)) := by
  have hf : f = 0 ∨ f = 1 := by
    rcases Nat.lt_succ_iff_lt_or_eq.1 h with h | h
    · exact .inl (BitVec.eq_of_toNat_eq (Nat.lt_one_iff.1 h))
    · exact .inr (BitVec.eq_of_toNat_eq h)
  rcases hf with rfl | rfl <;> rfl

theorem bindParamsOf_eq_some {t : Tag} {a c f : Byte} {b : BindParams} :
    bindParamsOf (tagBytes t ++ [a, c, f]) = some b ↔ validTag t = true ∧ b.tag = t ∧ poolOfByte a = some b.addr ∧
      classOfByte c = some b.cls ∧ forceOfByte f = some b.force := by
  unfold bindParamsOf
  rw [drop_tagBytes_append, take_tagBytes_append, tagOfBytes_tagBytes]
  dsimp only
  constructor
  · intro h
    split at h
    · rename_i hv hp hc hf
      cases h
      exact ⟨hv, rfl, hp, hc, hf⟩
    · cases h
  · rintro ⟨hv, rfl, hp, hc, hf⟩
    rw [hv, hp, hc, hf]

/-- A Bind with a parameter out of range. -/
theorem ownBind_outside {t : Tag} {a c f : Byte} (h : validTag t = false ∨ (∀ p, a ≠ poolByte p) ∨ 4 ≤ c.toNat ∨ 2 ≤ f.toNat)
    (s : State) : ownBind (tagBytes t ++ [a, c, f]) s = .badParam s := by
  have hn : bindParamsOf (tagBytes t ++ [a, c, f]) = none := by
    refine Option.eq_none_iff_forall_ne_some.2 fun b hb => ?_
    obtain ⟨hv, -, hp, hc, hf⟩ := bindParamsOf_eq_some.1 hb
    rcases h with h | h | h | h
    · cases hv.symm.trans h
    · exact h _ (poolByte_of_poolOfByte hp)
    · cases (classOfByte_eq_none h).symm.trans hc
    · exact absurd (forceOfByte_eq_some hf) (Nat.not_lt.2 h)
  rw [ownBind, hn]

/-- A Bind with its parameters in range. -/
theorem ownBind_inside {t : Tag} {f : Byte} (ht : validTag t = true) (p : Pool) (k : ClassId) (hf : f.toNat < 2) (s : State) :
    ownBind (tagBytes t ++ [poolByte p, byteOf k.val, f]) s = s.bind ⟨t, p, k, decide (f = 1)⟩ := by
  have hb : bindParamsOf (tagBytes t ++ [poolByte p, byteOf k.val, f]) = some ⟨t, p, k, decide (f = 1)⟩ :=
    bindParamsOf_eq_some.2 ⟨ht, rfl, poolOfByte_poolByte p, classOfByte_byteOf k, forceOfByte_of_lt hf⟩
  rw [ownBind, hb]

theorem exec_bind {s : State} {ps : List Byte} (h : Asked s .bind ps) {st : ReplyStatus} {d : List Byte}
    (hx : ownBind ps s = ⟨s, st, d⟩) : exec (.bind ps) s = .next (replied s st .bind d) := by
  rw [exec, execBind, serve_asked _ h, hx]
  rfl

/-! ### The checks of a Bind from the second on (R130) -/

theorem Store.boundToOther_eq_true {st : Store} {t : Tag} {a : Pool} : st.boundToOther t a = true ↔
    ∃ (k : BindSlot) (b : Binding), st.shadow[k] = some b ∧ b.addr = a ∧ b.tag ≠ t := by
  rw [← Bool.not_eq_false, Store.boundToOther_eq_false]
  push Not
  rfl

theorem State.heldByOther_iff {s : State} {t : Tag} {a : Pool} : s.heldByOther t a = true ↔
    ∃ u, (s.leaseOf a).holder = some u ∧ u ≠ t := by
  unfold State.heldByOther
  cases (s.leaseOf a).holder <;> simp

theorem Store.bindSlot_of_binding {st : Store} (hs : ShadowLaw st) {k : BindSlot} {b : Binding} (h : st.shadow[k] = some b) :
    st.bindSlot b.tag = some k := by
  rw [Store.bindSlot, Store.slotOf_of_binding hs h]
  rfl

theorem State.bindSlot_of_full {s : State} {t : Tag} (hu : Unbound s t) (hf : ∀ j : BindSlot, s.store.shadow[j] ≠ none) :
    s.store.bindSlot t = none := by
  have he : s.store.emptySlot = none := List.find?_eq_none.2 fun j _ => by simpa using hf j
  rw [Store.bindSlot, State.slotOf_eq_none hu, he]
  rfl

/-- Check 2 of a Bind finds no bad sector in the way (R126, R130). -/
def State.ClearOfBad (s : State) (t : Tag) : Prop :=
  ∀ j, s.store.bindSlot t = some j → s.store.outrun (logicalOf j) (s.store.nextSeq (logicalOf j)) = false

section
variable {s : State} {b : BindParams}

theorem State.ClearOfBad.any (h : s.ClearOfBad b.tag) : ((s.store.bindSlot b.tag).any fun k =>
    s.store.outrun (logicalOf k) (s.store.nextSeq (logicalOf k))) = false := by
  cases hk : s.store.bindSlot b.tag with
  | none => rfl
  | some k => exact h k hk

theorem State.bind_busy {r : Rewrite} (hm : s.store.mode = .rewriting r) : s.bind b = .busy s := by
  simp only [State.bind, hm]

theorem State.bind_degraded (hm : s.store.mode = .degraded) : s.bind b = .refused s .degraded := by
  simp only [State.bind, hm]

theorem State.bind_outrun (hm : s.store.mode = .ready) {k : BindSlot} (hk : s.store.bindSlot b.tag = some k)
    (ho : s.store.outrun (logicalOf k) (s.store.nextSeq (logicalOf k)) = true) : s.bind b = .refused s .degraded := by
  simp only [State.bind, hm, hk, Option.any_some, ho, if_true]

theorem State.bind_pinned (hm : s.store.mode = .ready) (hc : s.ClearOfBad b.tag)
    (hb : s.store.boundToOther b.tag b.addr = true) : s.bind b = .refused s .pinned := by
  simp only [State.bind, hm, hc.any, hb, Bool.false_eq_true, if_false, if_true]

theorem State.bind_withheld (hm : s.store.mode = .ready) (hc : s.ClearOfBad b.tag)
    (hb : s.store.boundToOther b.tag b.addr = false) (hw : s.leaseOf b.addr = .withheld) :
    s.bind b = .refused s .withheld := by
  simp only [State.bind, hm, hc.any, hb, hw, Bool.false_eq_true, if_false, if_true]

theorem State.bind_full (hm : s.store.mode = .ready) (hb : s.store.boundToOther b.tag b.addr = false)
    (hw : s.leaseOf b.addr ≠ .withheld) (hk : s.store.bindSlot b.tag = none) : s.bind b = .refused s .full := by
  simp only [State.bind, hm, hk, Option.any_none, hb, if_neg hw, Bool.false_eq_true, if_false]

theorem State.bind_held (hm : s.store.mode = .ready) (hc : s.ClearOfBad b.tag)
    (hb : s.store.boundToOther b.tag b.addr = false) (hw : s.leaseOf b.addr ≠ .withheld) {k : BindSlot}
    (hk : s.store.bindSlot b.tag = some k) (hh : s.heldByOther b.tag b.addr = true ∧ b.force = false) :
    s.bind b = .refused s .held := by
  simp only [State.bind, hm, hk, Option.any_some, hc k hk, hb, if_neg hw, if_pos hh, Bool.false_eq_true, if_false]

theorem State.bind_there (hm : s.store.mode = .ready) (hc : s.ClearOfBad b.tag)
    (hb : s.store.boundToOther b.tag b.addr = false) (hw : s.leaseOf b.addr ≠ .withheld) {k : BindSlot}
    (hk : s.store.bindSlot b.tag = some k) (hh : ¬ (s.heldByOther b.tag b.addr = true ∧ b.force = false))
    (hs : s.store.shadow[k] = some ⟨b.tag, b.addr, b.cls⟩) : s.bind b = .ok s [byteOf k.val, 0x00] := by
  simp only [State.bind, hm, hk, Option.any_some, hc k hk, hb, if_neg hw, if_neg hh, hs, Bool.false_eq_true, if_false, if_true]

end

/-- Settles O48: each check is reached where the checks before it pass. -/
theorem bindRefusedOrUnchanged : Obligations.BindRefusedOrUnchanged := by
  unfold Obligations.BindRefusedOrUnchanged
  intro s t a c f params hask hshadow run
  refine ⟨fun h => exec_bind hask (ownBind_outside h s), ?_⟩
  rintro p k hv rfl rfl hf
  have answer : ∀ {st : ReplyStatus} {d : List Byte}, s.bind ⟨t, p, k, decide (f = 1)⟩ = ⟨s, st, d⟩ →
      run = .next (replied s st .bind d) := fun h => exec_bind hask ((ownBind_inside hv p k hf s).trans h)
  refine ⟨fun ⟨r, hm⟩ => answer (State.bind_busy hm), fun hm => answer (State.bind_degraded hm), fun hm =>
    ⟨fun j hj ho => answer (State.bind_outrun hm hj ho), fun hclear => ⟨fun hb => ?_, fun hb => ⟨fun hw => ?_, fun hw =>
      ⟨fun hu hfull => ?_, fun j u hj hu hut hf0 => ?_, fun j hj hheld => ?_⟩⟩⟩⟩⟩
  · exact answer (State.bind_pinned hm hclear (Store.boundToOther_eq_true.2 hb))
  · exact answer (State.bind_withheld hm hclear (Store.boundToOther_eq_false.2 hb) hw)
  · exact answer (State.bind_full hm (Store.boundToOther_eq_false.2 hb) hw (State.bindSlot_of_full hu hfull))
  · refine answer (State.bind_held hm hclear (Store.boundToOther_eq_false.2 hb) hw hj ⟨?_, ?_⟩)
    · exact State.heldByOther_iff.2 ⟨u, hu, hut⟩
    · rw [hf0]
      rfl
  · refine answer (State.bind_there (b := ⟨t, p, k, decide (f = 1)⟩) hm hclear (Store.boundToOther_eq_false.2 hb) hw (Store.bindSlot_of_binding hshadow hj)
      ?_ hj)
    rintro ⟨hother, hforce⟩
    obtain ⟨u, hu, hut⟩ := State.heldByOther_iff.1 hother
    exact of_decide_eq_false hforce ((hheld u hu).resolve_left hut)

/-! ### Unbind (R136, R182) -/

theorem exec_unbind {s : State} {ps : List Byte} (h : Asked s .unbind ps) {x : Answer} (hx : ownUnbind ps s = x) :
    exec (.unbind ps) s = .next (replied x.state x.status .unbind x.data) := by
  rw [exec, execUnbind, serve_asked _ h, hx]
  rfl

theorem ownUnbind_valid {t : Tag} (h : validTag t = true) (s : State) : ownUnbind (tagBytes t) s = s.unbind t := by
  rw [ownUnbind, tagOfBytes_tagBytes]
  exact if_pos ⟨length_tagBytes t, h⟩

theorem ownUnbind_invalid {t : Tag} (h : validTag t = false) (s : State) : ownUnbind (tagBytes t) s = .badParam s := by
  rw [ownUnbind, tagOfBytes_tagBytes]
  exact if_neg (by simp [h])

section
variable {s : State} {t : Tag}

theorem State.unbind_busy {r : Rewrite} (hm : s.store.mode = .rewriting r) : s.unbind t = .busy s := by
  simp only [State.unbind, hm]

theorem State.unbind_degraded (hm : s.store.mode = .degraded) : s.unbind t = .refused s .degraded := by
  simp only [State.unbind, hm]

theorem State.unbind_notFound (hm : s.store.mode = .ready) (hu : Unbound s t) : s.unbind t = .notFound s := by
  simp only [State.unbind, hm, State.slotOf_eq_none hu]

theorem State.unbind_outrun (hm : s.store.mode = .ready) (hs : ShadowLaw s.store) {k : BindSlot} {b : Binding}
    (hk : s.store.shadow[k] = some b) (ho : s.store.outrun (logicalOf k) (s.store.nextSeq (logicalOf k)) = true) :
    s.unbind b.tag = .refused s .degraded := by
  simp only [State.unbind, hm, Store.slotOf_of_binding hs hk, Store.bindingOf_of_binding hs hk, ho, if_true]

theorem State.unbind_accepted (hm : s.store.mode = .ready) (hs : ShadowLaw s.store) {k : BindSlot} {b : Binding}
    (hk : s.store.shadow[k] = some b) (ho : s.store.outrun (logicalOf k) (s.store.nextSeq (logicalOf k)) = false)
    {target : SectorId} (ht : s.store.lowestErased = some target) :
    s.unbind b.tag = .ok (s.withStore (s.store.beginRewrite (.unbind k b) target)) [byteOf k.val] := by
  simp only [State.unbind, hm, Store.slotOf_of_binding hs hk, Store.bindingOf_of_binding hs hk, ho, ht, Bool.false_eq_true,
    if_false]

end

/-! ### Binding Read (R183) -/

theorem exec_bindingRead {s : State} {ps : List Byte} (h : Asked s .bindingRead ps) {st : ReplyStatus} {d : List Byte}
    (hx : ownBindingRead ps s = ⟨s, st, d⟩) : exec (.bindingRead ps) s = .next (replied s st .bindingRead d) := by
  rw [exec, execBindingRead, serve_asked _ h, hx]
  rfl

theorem ownBindingRead_slot {n : Byte} {k : BindSlot} (h : n.toNat = k.val) (s : State) :
    ownBindingRead [n] s = .ok s (s.store.bindingRecord k) := by
  have hn : n.toNat < 32 := h ▸ k.isLt
  have hk : (⟨n.toNat, hn⟩ : BindSlot) = k := Fin.ext h
  rw [← hk]
  exact dif_pos hn

theorem ownBindingRead_outside {n : Byte} (h : 31 < n.toNat) (s : State) : ownBindingRead [n] s = .badParam s :=
  dif_neg (Nat.not_lt.2 h)

theorem Store.bindingRecord_some {st : Store} {k : BindSlot} {b : Binding} (h : st.shadow[k] = some b) :
    st.bindingRecord k = [byteOf k.val, st.slotState k] ++ tagBytes b.tag ++ [poolByte b.addr, byteOf b.cls.val] := by
  rw [Store.bindingRecord, h]

theorem Store.bindingRecord_none {st : Store} {k : BindSlot} (h : st.shadow[k] = none) :
    st.bindingRecord k = [byteOf k.val, st.slotState k, 0, 0, 0, 0, 0, 0, 0, 0] := by
  rw [Store.bindingRecord, h, tagBytes_zero]
  rfl

/-- A slot without a pending change is EMPTY or BOUND. -/
theorem Store.slotState_settled {st : Store} {k : BindSlot} (h : ∀ r, st.mode = .rewriting r → r.change.slot ≠ k) :
    st.slotState k = if (st.shadow[k]).isSome then 0x01 else 0x00 := by
  unfold Store.slotState
  split
  · rename_i r hm
    have hr := h r hm
    split
    · rename_i hc
      rw [hc] at hr
      exact if_neg hr
    · rename_i hc
      rw [hc] at hr
      exact if_neg hr
  · rfl

theorem Store.slotState_bind {st : Store} {k : BindSlot} {r : Rewrite} (hm : st.mode = .rewriting r) {x : Option Binding}
    {y : Binding} {z : Option Pool} (hc : r.change = .bind k x y z) : st.slotState k = 0x02 := by
  simp only [Store.slotState, hm, hc, if_true]

theorem Store.slotState_unbind {st : Store} {k : BindSlot} {r : Rewrite} (hm : st.mode = .rewriting r) {x : Binding}
    (hc : r.change = .unbind k x) : st.slotState k = 0x03 := by
  simp only [Store.slotState, hm, hc, if_true]

/-- Settles O49: the checks of an Unbind one by one, and the record of a slot by its content and its state. -/
theorem unbindAndBindingRead : Obligations.UnbindAndBindingRead := by
  unfold Obligations.UnbindAndBindingRead
  refine fun s => ⟨fun t hask hs => ?unbind, fun n hask => ⟨fun hn => ?_, fun k hk => ?read⟩⟩
  case unbind =>
    intro run
    refine ⟨fun hv => exec_unbind hask (ownUnbind_invalid hv s), fun hv => ?_⟩
    have answer : ∀ {x : Answer}, s.unbind t = x → run = .next (replied x.state x.status .unbind x.data) :=
      fun h => exec_unbind hask ((ownUnbind_valid hv s).trans h)
    refine ⟨fun ⟨r, hm⟩ => answer (State.unbind_busy hm), fun hm => answer (State.unbind_degraded hm), fun hm =>
      ⟨fun hu => answer (State.unbind_notFound hm hu), ?_⟩⟩
    rintro k b hk rfl
    exact ⟨fun ho => answer (State.unbind_outrun hm hs hk ho), fun target ho ht =>
      answer (State.unbind_accepted hm hs hk ho ht)⟩
  · exact exec_bindingRead hask (ownBindingRead_outside hn s)
  case read =>
    have hbyte : byteOf k.val = n := by rw [← hk, byteOf_toNat]
    refine ⟨s.store.slotState k, ?_, Store.slotState_settled, fun r x y z hm hc => Store.slotState_bind hm hc,
      fun r x hm hc => Store.slotState_unbind hm hc⟩
    rw [exec_bindingRead hask (ownBindingRead_slot hk s)]
    cases hb : s.store.shadow[k] with
    | some b => rw [Store.bindingRecord_some hb, hbyte]
    | none => rw [Store.bindingRecord_none hb, hbyte]

end Sys2Proof.Machine
end

section
/-! PROOFS. A rewrite cut by a hard reset or a loss of supply (O52): what the cut leaves in the target and in the old sector, and
what the scan after it keeps. -/

namespace Sys2Proof.Machine

open Sys2Proof.Safety

/-! ### The reset after the cut -/

/-- By a hard reset, or by a loss of supply with a hard reset after it, one cut reaches the flash. -/
theorem store_of_cut {s t : State} {spd : Bool} {cut : FlashCut} (hp : s.power ≠ .off)
    (h : exec (.hardReset spd cut) s = .next t ∨
      ∃ v cut', exec (.powerLoss cut') s = .next v ∧ exec (.hardReset spd cut) v = .next t) :
    t.power = .held ∧ ∃ c, t.store = .afterReset (s.store.cutFlash c) := by
  rcases h with h | ⟨v, cut', hv, h⟩
  · cases h
    exact ⟨rfl, cut, rfl⟩
  · have hlost : exec (.powerLoss cut') s = .next (s.volatileLost .off s.bus.fast cut') := congrArg Host.Outcome.next (if_neg hp)
    cases hlost.symm.trans hv
    cases h
    exact ⟨rfl, cut', congrArg Store.afterReset (cutFlash_at_rest cut (.inr (.inr ⟨false, false, rfl⟩)))⟩

/-! ### What the cut leaves (R145) -/

/-- The flash that a cut of a rewrite leaves: the target as the step in progress may leave it, and every other sector as it was,
but for the old one that is being erased. -/
structure CutLeaves (st : Store) (r : Rewrite) (flash : Vector Sector 5) : Prop where
  others : ∀ k : SectorId, k ≠ r.target → flash[k] = st.flash[k] ∨
    (∃ b, r.step = .eraseOld b) ∧ (∃ q, st.current[r.logical] = some (k, q)) ∧ classify (flash[k]) = .partially
  program : r.step = .program → (flash[r.target]).mark = false
  mark : r.step = .mark → ∃ m, flash[r.target] = programmed r.logical r.seq m (r.slots st)
  eraseTarget : r.step = .eraseTarget → classify (flash[r.target]) = .partially
  eraseOld : ∀ b, r.step = .eraseOld b → flash[r.target] = programmed r.logical r.seq true (r.slots st)

section
variable {st : Store} {r : Rewrite}

theorem cutFlash_program (cut : FlashCut) (hm : st.mode = .rewriting r) (hs : r.step = .program) :
    st.cutFlash cut = st.flash.set r.target { cut.reads with mark := false } := by
  simp only [Store.cutFlash, hm, hs]

theorem cutFlash_mark (cut : FlashCut) (hm : st.mode = .rewriting r) (hs : r.step = .mark) :
    st.cutFlash cut = st.flash.set r.target { st.flash[r.target] with mark := cut.reads.mark } := by
  simp only [Store.cutFlash, hm, hs]

/-- A sector without a mark is left partial by a cut erase (R125). -/
theorem classify_eraseLeft_unmarked {before : Sector} (h : before.mark = false) (reads : Sector) :
    classify (eraseLeft before reads) = .partially := by
  rcases eraseLeft_cases before reads with he | ⟨he, hb⟩
  · exact he
  · rw [he, classify_eq_partially]
    exact ⟨hb, validImage_of_unmarked h⟩

theorem InFlight.cutLeaves (h : InFlight st r) (hm : st.mode = .rewriting r) (cut : FlashCut) :
    CutLeaves st r (st.cutFlash cut) := by
  have htarget := h.target
  have only : ∀ {x : Sector} (k : SectorId), k ≠ r.target → (st.flash.set r.target x)[k] = st.flash[k] :=
    fun k hk => getElem_set_other _ hk _
  cases hs : r.step with
  | program =>
    rw [cutFlash_program cut hm hs]
    refine ⟨fun k hk => .inl (only k hk), fun _ => ?_, by simp [hs], by simp [hs], by simp [hs]⟩
    rw [getElem_set_same]
  | mark =>
    rw [hs] at htarget
    rw [cutFlash_mark cut hm hs]
    refine ⟨fun k hk => .inl (only k hk), by simp [hs], fun _ => ⟨cut.reads.mark, ?_⟩, by simp [hs], by simp [hs]⟩
    rw [getElem_set_same, htarget]
    rfl
  | eraseTarget =>
    rw [hs] at htarget
    rw [cutFlash_eraseTarget cut hm hs]
    refine ⟨fun k hk => .inl (only k hk), by simp [hs], by simp [hs], fun _ => ?_, by simp [hs]⟩
    rw [getElem_set_same]
    exact classify_eraseLeft_unmarked htarget _
  | eraseOld b =>
    rw [hs] at htarget
    obtain ⟨himage, hold⟩ := htarget
    obtain ⟨⟨k, q⟩, hc⟩ := Option.ne_none_iff_exists'.1 hold
    rw [cutFlash_eraseOld cut hm hs hc]
    refine ⟨fun j _ => ?_, by simp [hs], by simp [hs], by simp [hs], fun _ _ => ?_⟩
    · by_cases hj : j = k
      · subst hj
        rw [getElem_set_same]
        rcases eraseLeft_cases (st.flash[j]) cut.reads with he | ⟨he, -⟩
        · exact .inr ⟨⟨b, hs⟩, ⟨q, hc⟩, he⟩
        · exact .inl he
      · exact .inl (getElem_set_other _ hj _)
    · rw [getElem_set_other _ (h.sound.ne_of_loose rfl hc).symm, himage]

/-! ### The target and the old sector, by the step (R145) -/

variable {flash : Vector Sector 5}

theorem classify_unmarked {x : Sector} (h : x.mark = false) : classify x = .erased ∨ classify x = .partially := by
  by_cases hb : x = blankSector
  · exact .inl (classify_eq_erased.2 hb)
  · exact .inr (classify_eq_partially.2 ⟨hb, validImage_of_unmarked h⟩)

theorem programmed_ne_blank (l : LogicalId) (q : Half) (mark : Bool) (slots : Vector SlotCell 8) :
    programmed l q mark slots ≠ blankSector := fun h => nomatch congrArg Sector.header h

theorem classify_programmed_unmarked (l : LogicalId) (q : Half) (slots : Vector SlotCell 8) :
    classify (programmed l q false slots) = .partially :=
  classify_eq_partially.2 ⟨programmed_ne_blank l q false slots, validImage_of_unmarked rfl⟩

/-- Where the target reads as an image, it is the new one, whole. -/
theorem CutLeaves.target_image (hcut : CutLeaves st r flash) {y : LogicalId × Half}
    (hy : validImage (flash[r.target]) = some y) :
    y = (r.logical, r.seq) ∧ flash[r.target] = programmed r.logical r.seq true (r.slots st) := by
  cases hs : r.step with
  | program => cases (validImage_of_unmarked (hcut.program hs)).symm.trans hy
  | mark =>
    obtain ⟨m, hm⟩ := hcut.mark hs
    rw [hm] at hy
    cases m with
    | false => cases hy
    | true =>
      rw [validImage_programmed] at hy
      cases hy
      exact ⟨rfl, hm⟩
  | eraseTarget => cases (classify_eq_partially.1 (hcut.eraseTarget hs)).2.symm.trans hy
  | eraseOld b =>
    have hm := hcut.eraseOld b hs
    rw [hm, validImage_programmed] at hy
    cases hy
    exact ⟨rfl, hm⟩

theorem CutLeaves.new_of_eraseOld (hcut : CutLeaves st r flash) {b : Bool} (hs : r.step = .eraseOld b) :
    validImage (flash[r.target]) = some (r.logical, r.seq) := by
  rw [hcut.eraseOld b hs, validImage_programmed]

theorem InFlight.newer_old (h : InFlight st r) {k : SectorId} {q : Half} (hc : st.current[r.logical] = some (k, q)) :
    newer r.seq q = true := by
  rw [h.seq, Store.nextSeq_some hc]
  exact newer_succ q

theorem InFlight.old_sector (h : InFlight st r) (hcut : CutLeaves st r flash) {k : SectorId} {q : Half}
    (hc : st.current[r.logical] = some (k, q)) : validImage (flash[k]) = some (r.logical, q) ∨
      (∃ b, r.step = .eraseOld b) ∧ classify (flash[k]) = .partially := by
  rcases hcut.others k (h.sound.ne_of_loose rfl hc) with he | ⟨hs, -, hp⟩
  · rw [he]
    exact .inl (h.sound.valid _ k q hc)
  · exact .inr ⟨hs, hp⟩

/-! ### What the scan keeps -/

/-- Where no bad sector reads as an image, every image is the new one in the target, or a current one. -/
theorem InFlight.image_cases (h : InFlight st r) (hcut : CutLeaves st r flash)
    (hbad : ∀ k : SectorId, st.bad[k] = true → validImage (st.flash[k]) = none) {k : SectorId} {l : LogicalId} {q : Half}
    (hv : validImage (flash[k]) = some (l, q)) : k = r.target ∨ k ≠ r.target ∧ st.current[l] = some (k, q) := by
  by_cases hk : k = r.target
  · exact .inl hk
  · refine .inr ⟨hk, ?_⟩
    rcases hcut.others k hk with he | ⟨-, -, hp⟩
    · rw [he] at hv
      rcases (h.sound.covered k).resolve_left hk with hb | hb | ⟨m, p, hc⟩
      · cases (hbad k hb).symm.trans hv
      · rw [h.sound.blank_of_erased hb] at hv
        cases hv
      · cases (h.sound.valid m k p hc).symm.trans hv
        exact hc
    · cases (classify_eq_partially.1 hp).2.symm.trans hv

/-- A logical sector of which the target holds no image is as it was before the cut. -/
theorem InFlight.flash_current (h : InFlight st r) (hcut : CutLeaves st r flash) {l : LogicalId}
    (hl : ∀ q, validImage (flash[r.target]) ≠ some (l, q)) {k : SectorId} {q : Half} (hc : st.current[l] = some (k, q)) :
    flash[k] = st.flash[k] := by
  rcases hcut.others k (h.sound.ne_of_loose rfl hc) with he | ⟨⟨b, hs⟩, ⟨p, hp⟩, -⟩
  · exact he
  · obtain rfl := h.sound.map.2.2 l r.logical k q p hc hp
    exact absurd (hcut.new_of_eraseOld hs) (hl _)

/-- The scan keeps what was current of a logical sector of which the target holds no image. -/
theorem InFlight.keeps_current (h : InFlight st r) (hcut : CutLeaves st r flash)
    (hbad : ∀ k : SectorId, st.bad[k] = true → validImage (st.flash[k]) = none) {l : LogicalId}
    (hl : ∀ q, validImage (flash[r.target]) ≠ some (l, q)) : (keptMap flash)[l] = st.current[l] := by
  have image : ∀ {k : SectorId} {q : Half}, validImage (flash[k]) = some (l, q) → st.current[l] = some (k, q) := by
    intro k q hv
    rcases h.image_cases hcut hbad hv with rfl | ⟨-, hc⟩
    · exact absurd hv (hl q)
    · exact hc
  refine Option.ext fun ⟨k, q⟩ => ⟨fun hk => image (validImage_of_keptMap hk), fun hc => keptMap_eq_some.2 ⟨?_, .inl ?_⟩⟩
  · rw [h.flash_current hcut hl hc]
    exact h.sound.valid l k q hc
  · intro j p hj hv
    cases hc.symm.trans (image hv)
    exact absurd rfl hj

/-- And the kept image of it holds the slots of the shadow without the change (R145). -/
theorem InFlight.keeps_agrees (h : InFlight st r) (hcut : CutLeaves st r flash)
    (hbad : ∀ k : SectorId, st.bad[k] = true → validImage (st.flash[k]) = none) {l : LogicalId}
    (hl : ∀ q, validImage (flash[r.target]) ≠ some (l, q)) :
    Agrees (Store.afterReset flash).beginScan (shadowBefore st r) l := by
  have hold : Agrees st (shadowBefore st r) l := by
    refine (h.agrees l).resolve_left ?_
    rintro ⟨⟨b, hs⟩, rfl⟩
    exact hl _ (hcut.new_of_eraseOld hs)
  exact agrees_congr hold (h.keeps_current hcut hbad hl) (fun k q hc => h.flash_current hcut hl hc) fun i => rfl

/-- The scan keeps the new image where it stands (R145). -/
theorem InFlight.keeps_new (h : InFlight st r) (hcut : CutLeaves st r flash)
    (hbad : ∀ k : SectorId, st.bad[k] = true → validImage (st.flash[k]) = none)
    (hnew : validImage (flash[r.target]) = some (r.logical, r.seq)) :
    (keptMap flash)[r.logical] = some (r.target, r.seq) := by
  refine keptMap_eq_some.2 ⟨hnew, .inl fun j p hj hv => ?_⟩
  rcases h.image_cases hcut hbad hv with rfl | ⟨-, hc⟩
  · exact absurd rfl hj
  · exact h.newer_old hc

/-- The superseded sector is erased where the new image stands (R145). -/
theorem InFlight.erases_old (h : InFlight st r) (hcut : CutLeaves st r flash)
    (hbad : ∀ k : SectorId, st.bad[k] = true → validImage (st.flash[k]) = none)
    (hnew : validImage (flash[r.target]) = some (r.logical, r.seq)) {k : SectorId} {q : Half}
    (hc : st.current[r.logical] = some (k, q)) : k ∈ sectorsToErase flash := by
  have hk : k ≠ r.target := h.sound.ne_of_loose rfl hc
  refine mem_sectorsToErase.2 ⟨?_, ?_⟩
  · rcases h.old_sector hcut hc with hv | ⟨-, hp⟩
    · exact ne_blank_of_validImage hv
    · exact (classify_eq_partially.1 hp).1
  · rintro ⟨m, p, hm⟩
    obtain ⟨-, hcm⟩ := (h.image_cases hcut hbad (validImage_of_keptMap hm)).resolve_left hk
    obtain rfl := h.sound.map.2.2 m r.logical k p q hcm hc
    cases hm.symm.trans (h.keeps_new hcut hbad hnew)
    exact hk rfl

end

/-- A partial sector is erased by the scan (R146). -/
theorem mem_sectorsToErase_of_partial {flash : Vector Sector 5} {k : SectorId} (h : classify (flash[k]) = .partially) :
    k ∈ sectorsToErase flash := by
  obtain ⟨hb, hv⟩ := classify_eq_partially.1 h
  refine mem_sectorsToErase.2 ⟨hb, ?_⟩
  rintro ⟨l, q, hk⟩
  cases hv.symm.trans (validImage_of_keptMap hk)

/-- Settles O52: the flash that the cut leaves, and then the scan over it. -/
theorem cutRewriteLeavesOldOrNewImage : Obligations.CutRewriteLeavesOldOrNewImage := by
  unfold Obligations.CutRewriteLeavesOldOrNewImage
  intro s t u r spd cut hm hs _ ht hu target isNew
  have h : InFlight s.store r := (lawful_of_storeLaws hs).inFlight hm
  have hpower : s.power ≠ .off := fun hp => by
    obtain ⟨i, x, hm'⟩ := hs.1 (by simp [hp])
    cases hm.symm.trans hm'
  obtain ⟨hheld, c, hstore⟩ := store_of_cut hpower ht
  have hcut : CutLeaves s.store r t.store.flash := by
    rw [hstore]
    exact h.cutLeaves hm c
  cases (exec_hardResetEnd hheld).symm.trans hu
  have hbegin : t.store.beginScan = (Store.afterReset t.store.flash).beginScan := by
    rw [hstore]
    rfl
  refine ⟨fun hp => classify_unmarked (hcut.program hp), fun hp => ?_, hcut.eraseTarget,
    fun b hp => hcut.new_of_eraseOld hp, fun k q hc => ⟨h.newer_old hc, h.old_sector hcut hc⟩,
    sectorsToErase t.store.flash, _, rfl, mem_sectorsToErase_of_partial, fun hbad => ⟨fun l hl => ?others, ?written⟩⟩
  · obtain ⟨m, he⟩ := hcut.mark hp
    cases m with
    | false => exact .inl ((congrArg classify he).trans (classify_programmed_unmarked _ _ _))
    | true => exact .inr ((congrArg validImage he).trans (validImage_programmed _ _ _))
  case others =>
    have hother : ∀ q, validImage (t.store.flash[r.target]) ≠ some (l, q) := fun q hq => by
      cases (hcut.target_image hq).1
      exact hl rfl
    refine ⟨h.keeps_current hcut hbad hother, ?_⟩
    change Agrees t.store.beginScan _ _
    rw [hbegin]
    exact h.keeps_agrees hcut hbad hother
  case written =>
    by_cases hnew : isNew
    · refine .inr ⟨hnew, h.keeps_new hcut hbad hnew, fun k q hc => h.erases_old hcut hbad hnew hc, ?_⟩
      exact agrees_of_current (h.keeps_new hcut hbad hnew) (hcut.target_image hnew).2
    · have hold : ∀ q, validImage (t.store.flash[r.target]) ≠ some (r.logical, q) := fun q hq => by
        cases (hcut.target_image hq).1
        exact hnew hq
      refine .inl ⟨hnew, ?_⟩
      change Agrees t.store.beginScan _ _
      rw [hbegin]
      exact h.keeps_agrees hcut hbad hold

end Sys2Proof.Machine
end

section
/-! PROOFS. The host port: what HSDO carries and which frames leave no trace (O33), and how the request of a delivered frame is
judged (O34). -/

namespace Sys2Proof.Machine

open Sys2Proof.Safety

/-! ### HSDO driven and in high impedance (R150, R151, R161) -/

theorem State.hsdoDriven_iff {s : State} :
    s.hsdoDriven = true ↔ s.power = .running ∧ s.port.hselLow = true ∧ s.port.frame ≠ none := by
  simp [State.hsdoDriven, Option.isSome_iff_ne_none, and_assoc]

theorem State.hsdoDriven_of_no_frame {s : State} (h : s.port.frame = none) : s.hsdoDriven = false :=
  eq_false_of_ne_true fun hd => (State.hsdoDriven_iff.1 hd).2.2 h

theorem State.hsdoDriven_of_hselHigh {s : State} (h : s.port.hselLow = false) : s.hsdoDriven = false :=
  eq_false_of_ne_true fun hd => Bool.false_ne_true (h.symm.trans (State.hsdoDriven_iff.1 hd).2.1)

/-- While HSDO is driven it carries the content of the frame in progress. -/
theorem State.hsdo_of_driven {s : State} {f : Frame} (hd : s.hsdoDriven = true) (hf : s.port.frame = some f) (i : Nat) :
    s.hsdo i = some (hsdoByte f.out i) := by
  rw [State.hsdo, if_pos hd, hf]
  rfl

theorem State.hsdo_eq_none_iff {s : State} {i : Nat} : s.hsdo i = none ↔ s.hsdoDriven = false := by
  cases hd : s.hsdoDriven with
  | false => simp [State.hsdo, hd]
  | true =>
    obtain ⟨f, hf⟩ := Option.ne_none_iff_exists'.1 (State.hsdoDriven_iff.1 hd).2.2
    simp [State.hsdo_of_driven hd hf]

/-! ### The bytes on HSDO (R153) -/

/-- From its fourth byte on a reply is its data and its check byte. -/
theorem hsdoByte_reply_add_three (r : Reply) (i : Nat) : hsdoByte (.reply r) (i + 3) =
    (r.data ++ [crc8 ([r.status.code, r.echo, byteOf r.data.length] ++ r.data)]).getD i 0xFF := rfl

theorem hsdoByte_reply_data {r : Reply} {i : Nat} {d : Byte} (h : r.data[i]? = some d) : hsdoByte (.reply r) (i + 3) = d := by
  obtain ⟨hi, -⟩ := List.getElem?_eq_some_iff.1 h
  rw [hsdoByte_reply_add_three, List.getD_eq_getElem?_getD, List.getElem?_append_left hi, h]
  rfl

theorem hsdoByte_reply_check (r : Reply) :
    hsdoByte (.reply r) (r.data.length + 3) = crc8 ([r.status.code, r.echo, byteOf r.data.length] ++ r.data) := by
  rw [hsdoByte_reply_add_three, List.getD_eq_getElem?_getD, List.getElem?_concat_length]
  rfl

/-- After its check byte a reply is followed by 0xFF. -/
theorem hsdoByte_reply_after (r : Reply) (i : Nat) : hsdoByte (.reply r) (r.data.length + 4 + i) = 0xFF := by
  rw [show r.data.length + 4 + i = r.data.length + 1 + i + 3 by omega, hsdoByte_reply_add_three]
  exact List.getD_eq_default _ _ (by simp)

/-! ### A frame begins (R150, R154) -/

/-- The frame that begins with the buffer as it stands. -/
def State.beginFrame (s : State) (hsck : Bool) : State :=
  s.withPort { s.port with hselLow := true, frame := some ⟨spiMode hsck, s.port.buffer.frameOut⟩ }

theorem exec_hselNFall_running {s : State} {hsck : Bool} (hlow : s.port.hselLow = false) (hp : s.power = .running) :
    exec (.hselNFall hsck) s = .next (s.beginFrame hsck) := by
  simp [exec, execHselNFall, hlow, hp, State.beginFrame]

/-- In reset and without supply only the level of the pin is seen (R151). -/
theorem exec_hselNFall_not_running {s : State} {hsck : Bool} (hlow : s.port.hselLow = false) (hp : s.power ≠ .running) :
    exec (.hselNFall hsck) s = .next (s.withPort { s.port with hselLow := true }) := by
  simp [exec, execHselNFall, hlow, hp]

theorem State.hsdoDriven_beginFrame {s : State} (hsck : Bool) (hp : s.power = .running) :
    (s.beginFrame hsck).hsdoDriven = true :=
  State.hsdoDriven_iff.2 ⟨hp, rfl, nofun⟩

theorem State.hsdo_beginFrame {s : State} (hsck : Bool) (hp : s.power = .running) (i : Nat) :
    (s.beginFrame hsck).hsdo i = some (hsdoByte s.port.buffer.frameOut i) :=
  State.hsdo_of_driven (s.hsdoDriven_beginFrame hsck hp) rfl i

/-- No frame outlives a hard reset: HSDO is high impedance in the reset and after it until the next frame (R151, R161). -/
theorem hsdoDriven_of_hardReset {s t u : State} {spd : Bool} {cut : FlashCut} (ht : exec (.hardReset spd cut) s = .next t)
    (hu : exec .hardResetEnd t = .next u) : t.hsdoDriven = false ∧ u.hsdoDriven = false := by
  cases ht
  cases hu
  exact ⟨State.hsdoDriven_of_no_frame rfl, State.hsdoDriven_of_no_frame rfl⟩

/-! ### A frame ends (R154) -/

/-- The frame is over, and the buffer is as it was. -/
def State.endFrame (s : State) : State := s.withPort { s.port with hselLow := false, frame := none }

theorem exec_hselNRise_discarded {s : State} {bytes : List Byte} {edges : Fin 8}
    (h : ∀ f, s.port.frame = some f → f.out.delivered bytes.length = false) :
    exec (.hselNRise bytes edges) s = .next s.endFrame := by
  cases hf : s.port.frame with
  | none => simp only [exec, execHselNRise, hf, State.endFrame]
  | some f => simp only [exec, execHselNRise, hf, h f hf, State.endFrame, Bool.false_eq_true, if_false]

theorem exec_hselNRise_delivered {s : State} {f : Frame} {bytes : List Byte} {edges : Fin 8} (hf : s.port.frame = some f)
    (h : f.out.delivered bytes.length = true) :
    exec (.hselNRise bytes edges) s = .next (s.endFrame.dispatch (judge s.lease.ready bytes (edges != 0))) := by
  simp only [exec, execHselNRise, hf, h, State.endFrame, if_true]

theorem FrameOut.delivered_reply_iff {r : Reply} {n : Nat} :
    (FrameOut.reply r).delivered n = true ↔ r.data.length + 4 ≤ n := decide_eq_true_iff

/-- A reply cut short, the filler, and no frame at all deliver nothing (R151, R154). -/
theorem not_delivered {s : State} {n : Nat}
    (h : s.port.frame = none ∨ (∃ m, s.port.frame = some ⟨m, .filler⟩) ∨
      ∃ m r, s.port.frame = some ⟨m, .reply r⟩ ∧ n < r.data.length + 4) {f : Frame} (hf : s.port.frame = some f) :
    f.out.delivered n = false := by
  rcases h with h | ⟨m, h⟩ | ⟨m, r, h, hn⟩
  · cases h.symm.trans hf
  · cases h.symm.trans hf
    rfl
  · cases h.symm.trans hf
    exact eq_false_of_ne_true fun hd => Nat.not_le.2 hn (FrameOut.delivered_reply_iff.1 hd)

/-- Settles O33: the frame that begins, the levels and the bytes of HSDO, and the frame that ends undelivered. -/
theorem frameBeginsAndUndeliveredFrameIsDiscarded : Obligations.FrameBeginsAndUndeliveredFrameIsDiscarded := by
  unfold Obligations.FrameBeginsAndUndeliveredFrameIsDiscarded
  refine ⟨fun s hsck hlow => ⟨exec_hselNFall_running hlow, exec_hselNFall_not_running hlow, ?high, fun t hp ht => ?low⟩,
    fun s => ⟨State.hsdoDriven_iff, fun _ => State.hsdo_eq_none_iff, fun _ _ _ _ => hsdoDriven_of_hardReset⟩,
    fun s bytes edges h => exec_hselNRise_discarded fun f => not_delivered h,
    fun r i => ⟨rfl, rfl, rfl, fun d => hsdoByte_reply_data, hsdoByte_reply_check r, hsdoByte_reply_after r i, rfl, rfl⟩⟩
  case high => exact fun i => State.hsdo_eq_none_iff.2 (State.hsdoDriven_of_hselHigh hlow)
  case low =>
    cases (exec_hselNFall_running hlow hp).symm.trans ht
    exact ⟨s.hsdoDriven_beginFrame hsck hp, s.hsdo_beginFrame hsck hp⟩

/-! ### The judgement of a request (R156, R157) -/

theorem requestOfByte_byte (c : RequestCode) : requestOfByte c.byte = some c := by
  cases c <;> rfl

theorem requestOfByte_eq_none {code : Byte} (h : ∀ c : RequestCode, c.byte ≠ code) : requestOfByte code = none :=
  List.find?_eq_none.2 fun c _ => by simpa using h c

theorem RequestCode.passesGate_iff {c : RequestCode} : c.passesGate = true ↔ c = .nop ∨ c = .ident ∨ c = .status := by
  cases c <;> simp [RequestCode.passesGate]

/-- Check 1: a parameter length over the maximum. -/
theorem judge_long {ready x : Bool} {code len : Byte} {rest : List Byte} (h : 20 < len.toNat) :
    judge ready (code :: len :: rest) x = .error .frameError code := if_pos h

/-- Check 2: bytes missing, or the last byte cut. -/
theorem judge_short {ready x : Bool} {code len : Byte} {rest : List Byte}
    (h : (code :: len :: rest).length < len.toNat + 3 ∨ x = true) :
    judge ready (code :: len :: rest) x = .error .frameError code := by
  simp only [judge, if_pos h, ite_self]

/-- Checks 3 and 4 and the gate, for a request with its parameters and check byte all there: the check byte, the code, and
whether the lease engine is ready or the code passes the gate. -/
theorem judge_complete {ready : Bool} {code len check : Byte} {params padding : List Byte} (hlen : len.toNat ≤ 20)
    (hp : params.length = len.toNat) :
    judge ready (code :: len :: (params ++ check :: padding)) false =
      if check = crc8 (code :: len :: params) then
        (requestOfByte code).elim (.error .unknown code) fun c =>
          if ready = true ∨ c.passesGate = true then .execute c params else .starting code
      else .error .checkError code := by
  have hlong : ¬ Config.maxParams < len.toNat := Nat.not_lt.2 hlen
  have hshort : ¬ ((code :: len :: (params ++ check :: padding)).length < len.toNat + 3 ∨ false = true) := by
    simp [hp]
  have hcheck : (params ++ check :: padding)[len.toNat]? = some check := by simp [← hp]
  have hparams : (params ++ check :: padding).take len.toNat = params := by simp [← hp]
  simp only [judge, if_neg hlong, if_neg hshort, hcheck, hparams, List.take_succ_cons, ne_eq, ite_not, Option.some.injEq]
  cases requestOfByte code <;> rfl

/-- Settles O34: each verdict is what the frame's bytes are judged to be, and is dispatched on the port. -/
theorem deliveredFrameIsJudged : Obligations.DeliveredFrameIsJudged := by
  unfold Obligations.DeliveredFrameIsJudged
  intro s f bytes edges hf hout holding error
  have delivered : f.out.delivered bytes.length = true := by
    rcases hout with ho | ⟨r, ho, hn⟩
    · rw [ho]
      rfl
    · rw [ho]
      exact FrameOut.delivered_reply_iff.2 hn
  have judged : ∀ {v}, judge s.lease.ready bytes (edges != 0) = v →
      exec (.hselNRise bytes edges) s = .next (s.endFrame.dispatch v) := fun hv =>
    hv ▸ exec_hselNRise_delivered hf delivered
  refine ⟨?empty, ?codeAlone, ?complete⟩
  case empty =>
    rintro rfl
    exact judged rfl
  case codeAlone =>
    rintro code rfl
    exact judged rfl
  case complete =>
    rintro code len rest rfl
    refine ⟨fun h => judged (judge_long h), fun hlen => ⟨fun h => judged (judge_short (h.imp_right bne_iff_ne.2)), ?_⟩⟩
    rintro params check padding rfl hp rfl
    have verdict := judge_complete (ready := s.lease.ready) (code := code) (check := check) (padding := padding) hlen hp
    refine ⟨fun hc => judged (verdict.trans (if_neg hc)), fun hc => ?_⟩
    rw [if_pos hc] at verdict
    refine ⟨fun hn => ?unknown, ?known⟩
    case unknown =>
      rw [requestOfByte_eq_none hn] at verdict
      exact judged verdict
    case known =>
      rintro c rfl
      rw [requestOfByte_byte] at verdict
      refine ⟨fun h => judged (verdict.trans (if_pos (h.imp_right RequestCode.passesGate_iff.2))),
        fun hr hnop hident hstatus => judged (verdict.trans (if_neg ?_))⟩
      rintro (hready | hgate)
      · cases hr.symm.trans hready
      · rcases RequestCode.passesGate_iff.1 hgate with h | h | h
        · exact hnop h
        · exact hident h
        · exact hstatus h

end Sys2Proof.Machine
end

section
/-! SUPPORT. The operations of the lease engine and of the bus engine leave the queue of commands alone. -/

namespace Sys2Proof.Machine

open Sys2Proof.Safety

/-! ### The lease engine leaves the queue -/

@[simp] theorem State.setLease_pending (s : State) (p : Pool) (l : Lease) : (s.setLease p l).pending = s.pending := rfl

@[simp] theorem State.setEvict_pending (s : State) (p : Pool) (t : Tag) (r : EvictReason) :
    (s.setEvict p t r).pending = s.pending := rfl

@[simp] theorem State.clearMarks_pending (s : State) (chosen : List Pool) : (s.clearMarks chosen).pending = s.pending := by
  simp [State.clearMarks]

@[simp] theorem State.toFree_pending (s : State) (p : Pool) (last : Option Tag) (x : Place) :
    (s.toFree p last x).pending = s.pending := by
  unfold State.toFree
  split <;> rfl

@[simp] theorem State.withdraw_pending (s : State) (p : Pool) (t : Tag) : (s.withdraw p t).pending = s.pending := by
  unfold State.withdraw
  split
  · rfl
  · split <;> rfl

@[simp] theorem State.ceasePinned_pending (s : State) (p : Pool) : (s.ceasePinned p).pending = s.pending := by
  unfold State.ceasePinned
  split
  · rfl
  · split <;> rfl

@[simp] theorem State.refuseRevoked_pending (s : State) (t : Tag) : (s.refuseRevoked t).pending = s.pending := by
  unfold State.refuseRevoked
  split <;> rfl

@[simp] theorem State.lapse_pending (s : State) (p : Pool) (o : OfferSlot) : (s.lapse p o).pending = s.pending := by
  unfold State.lapse
  split <;> simp

@[simp] theorem State.probeUnanswered_pending (s : State) (p : Pool) : (s.probeUnanswered p).pending = s.pending := by
  unfold State.probeUnanswered
  split
  · split <;> simp
  · rfl

@[simp] theorem State.conflictOn_pending (s : State) (p : Pool) : (s.conflictOn p).pending = s.pending := by
  unfold State.conflictOn
  dsimp only
  split
  · split <;> simp
  · rfl

/-! ### Timers, RENEW, snoop reports and CLAIM -/

@[simp] theorem State.expire_pending (s : State) (p : Pool) : (s.expire p).pending = s.pending := by
  obtain h | ⟨t, c, -, ⟨-, h⟩ | ⟨-, h⟩⟩ := s.expire_spec p <;> rw [h]
  · exact s.withdraw_pending p t
  · rfl

@[simp] theorem State.endQuarantine_pending (s : State) (p : Pool) : (s.endQuarantine p).pending = s.pending := by
  obtain h | ⟨t, -, h⟩ := s.endQuarantine_spec p <;> rw [h]
  exact s.toFree_pending p _ _

@[simp] theorem State.closeWindow_pending (s : State) : s.closeWindow.pending = s.pending := by
  unfold State.closeWindow
  split <;> rfl

@[simp] theorem State.endSecond_pending (s : State) : s.endSecond.pending = s.pending :=
  State.endSecond_induction (P := fun u => u.pending = s.pending) (fun u p => (u.expire_pending p).trans)
    (fun u p => (u.endQuarantine_pending p).trans) (fun u => u.closeWindow_pending.trans) rfl

@[simp] theorem State.lapseRunOut_pending (s : State) (p : Pool) : (s.lapseRunOut p).pending = s.pending := by
  unfold State.lapseRunOut
  split
  · exact s.lapse_pending p _
  · rfl

@[simp] theorem State.probeRunOut_pending (s : State) (p : Pool) : (s.probeRunOut p).pending = s.pending := by
  unfold State.probeRunOut
  split
  · exact s.probeUnanswered_pending p
  · rfl

@[simp] theorem State.startProbeTimer_pending (s : State) (p : Pool) : (s.startProbeTimer p).pending = s.pending := by
  unfold State.startProbeTimer
  split <;> rfl

@[simp] theorem State.regrantLease_pending (s : State) (p : Pool) (t : Tag) (c : ClassId) :
    (s.regrantLease p t c).pending = s.pending := rfl

@[simp] theorem State.renew_pending (s : State) (p : Pool) (t : Tag) (cls : Byte) : (s.renew p t cls).pending = s.pending := by
  by_cases h : ∃ c k, classOfByte cls = some c ∧ RenewLine s p t c k
  · obtain ⟨c, k, hc, hline⟩ := h
    rw [State.renew_granted hc hline]
    split <;> rfl
  · rw [State.renew_refused fun c k hc hline => h ⟨c, k, hc, hline⟩]
    rfl

@[simp] theorem State.snoop_pending (s : State) (p : Pool) : (s.snoop p).pending = s.pending := by
  unfold State.snoop
  split
  · split <;> rfl
  · split <;> rfl
  · split <;> simp

@[simp] theorem State.claimOffer_pending (s : State) (t : Tag) (p : Pool) : (s.claimOffer t p).pending = s.pending := by
  unfold State.claimOffer
  split <;> rfl

@[simp] theorem State.claim_pending (s : State) (t : Tag) (a : Byte) : (s.claim t a).pending = s.pending := by
  unfold State.claim
  split
  · rfl
  · split
    · split <;> simp
    · simp

/-! ### JOIN, and the bus engine -/

@[simp] theorem State.repeatOffer_pending (s : State) (p : Pool) : (s.repeatOffer p).pending = s.pending := by
  unfold State.repeatOffer
  split
  · split <;> rfl
  · rfl

@[simp] theorem State.join_pending (s : State) (t : Tag) (cls h : Byte) : (s.join t cls h).pending = s.pending := by
  unfold State.join
  split
  · rfl
  · split
    · exact s.repeatOffer_pending _
    · rfl
    · split <;> rfl

@[simp] theorem State.collectNotice_pending (s : State) (p : Pool) : (s.collectNotice p).pending = s.pending := by
  unfold State.collectNotice
  dsimp only
  split
  · rfl
  · split <;> rfl

@[simp] theorem State.chooseCurrent_pending (s : State) : s.chooseCurrent.pending = s.pending := by
  unfold State.chooseCurrent
  split
  · rfl
  · split
    · rfl
    · split <;> simp

@[simp] theorem State.outcome_pending (s : State) (acked : Bool) : (s.outcome acked).pending = s.pending := by
  unfold State.outcome
  split <;> rfl

@[simp] theorem State.countAttempt_pending (s : State) : s.countAttempt.pending = s.pending := by
  unfold State.countAttempt
  split
  · rfl
  · split <;> simp

@[simp] theorem State.brokenOff_pending (s : State) (e : Engine) : (s.brokenOff e).pending = s.pending :=
  s.countAttempt_pending

@[simp] theorem State.hear_pending (s : State) (dest src kind : Byte) (payload : List Byte) :
    (s.hear dest src kind payload).pending = s.pending := by
  have hu : (if src = Config.authority then s.raise .rival else s).pending = s.pending := by split <;> rfl
  unfold State.hear
  dsimp only
  split
  · split <;> exact hu
  · split <;> exact hu

@[simp] theorem State.receive_pending (s : State) (bytes : List Byte) : (s.receive bytes).pending = s.pending := by
  unfold State.receive
  split
  · split
    · rfl
    · split
      · split <;> simp
      · rfl
  · rfl

/-! ### Bind, and the outcome of a rewrite -/

@[simp] theorem State.markIfNewlyPinned_pending (s : State) (a : Pool) (b : Bool) :
    (s.markIfNewlyPinned a b).pending = s.pending := by
  unfold State.markIfNewlyPinned
  split <;> rfl

@[simp] theorem State.earlyEffect_pending (s : State) (t : Tag) (a : Pool) (b : Bool) :
    (s.earlyEffect t a b).pending = s.pending := by
  unfold State.earlyEffect
  split
  · rfl
  · rfl
  · simp
  · simp
  · split <;> simp
  · split <;> simp
  · split <;> simp

@[simp] theorem State.moveAway_pending (s : State) (t : Tag) (a : Pool) : (s.moveAway t a).pending = s.pending := by
  unfold State.moveAway
  split
  · rfl
  · split <;> simp

@[simp] theorem State.rewriteOutcome_pending (s : State) (r : Rewrite) (o : RewriteOutcome) :
    (s.rewriteOutcome r o).pending = s.pending := by
  rw [State.rewriteOutcome_eq]
  split <;> simp

end Sys2Proof.Machine
end

section
/-! PROOFS. Requests that are refused (O35): a parameter length that is not the code's, and every status other than OK. With
each owner also that it leaves the queue of commands alone, which O3 needs. -/

namespace Sys2Proof.Machine

open Sys2Proof.Safety

/-! ### How an owner answers (R163) -/

/-- The answer of an owner to a request: BAD_PARAM without effect where the parameter length is not that of the code, no
effect with any status other than OK, and the queue of commands as it was (R163). -/
structure Owned (code : RequestCode) (ps : List Byte) (s : State) (a : Answer) : Prop where
  badLength : ps.length ≠ paramLength code → a = .badParam s
  unchanged : a.status ≠ .ok → a.state = s
  queue : a.state.pending = s.pending

section
variable {code : RequestCode} {ps : List Byte} {s : State}

theorem owned_badParam : Owned code ps s (.badParam s) := ⟨fun _ => rfl, fun _ => rfl, rfl⟩

/-- With the right length, an answer without effect may have any status. -/
theorem owned_without_effect (hl : ps.length = paramLength code) (st : ReplyStatus) (d : List Byte) :
    Owned code ps s ⟨s, st, d⟩ :=
  ⟨fun h => absurd hl h, fun _ => rfl, rfl⟩

/-- With the right length, an answer OK may have any effect but on the queue of commands. -/
theorem owned_ok (hl : ps.length = paramLength code) (t : State) (d : List Byte) (hq : t.pending = s.pending) :
    Owned code ps s (.ok t d) :=
  ⟨fun h => absurd hl h, fun h => absurd rfl h, hq⟩

/-- A request without parameters that its owner always answers OK. -/
theorem owned_withoutParams {own : State → Answer} (hl : paramLength code = 0) (hok : (own s).status = .ok)
    (hq : (own s).state.pending = s.pending) : Owned code ps s (withoutParams ps own s) := by
  unfold withoutParams
  split
  · rename_i hps
    exact ⟨fun h => absurd (hl ▸ congrArg List.length hps) h, fun h => absurd hok h, hq⟩
  · exact owned_badParam

end

/-! ### Owner by owner -/

theorem owned_acknowledge (ps : List Byte) (s : State) : Owned .acknowledge ps s (ownAcknowledge ps s) := by
  unfold ownAcknowledge
  split
  · exact owned_ok rfl _ _ rfl
  · exact owned_badParam

theorem owned_enable (ps : List Byte) (s : State) : Owned .enable ps s (ownEnable ps s) := by
  unfold ownEnable
  split
  · exact owned_ok rfl _ _ rfl
  · exact owned_badParam

theorem owned_lookupAddress (ps : List Byte) (s : State) : Owned .lookupAddress ps s (ownLookupAddress ps s) := by
  unfold ownLookupAddress
  split
  · split
    · exact owned_badParam
    · split
      · exact owned_ok rfl _ _ rfl
      · split
        · exact owned_ok rfl _ _ rfl
        · exact owned_badParam
  · exact owned_badParam

theorem owned_lookupTag (ps : List Byte) (s : State) : Owned .lookupTag ps s (ownLookupTag ps s) := by
  unfold ownLookupTag
  split
  · rename_i h
    dsimp only
    split
    · exact owned_ok h.1 _ _ rfl
    · split
      · exact owned_ok h.1 _ _ rfl
      · exact owned_without_effect h.1 _ _
  · exact owned_badParam

theorem owned_freeList (ps : List Byte) (s : State) : Owned .freeList ps s (ownFreeList ps s) := by
  unfold ownFreeList
  split
  · split
    · exact owned_ok rfl _ _ rfl
    · exact owned_badParam
  · exact owned_badParam

section
variable {code : RequestCode} {ps : List Byte} (hl : ps.length = paramLength code) (s : State) (p : Pool)
include hl

/-- The table of Revoke (R89 to R91, R175). -/
theorem State.owned_revoke : Owned code ps s (s.revoke p) := by
  unfold State.revoke
  split
  · exact owned_ok hl _ _ (by simp)
  · exact owned_ok hl _ _ (by simp)
  · exact owned_ok hl _ _ (by simp)
  · exact owned_ok hl _ _ (by simp)
  · exact owned_without_effect hl _ _
  · exact owned_without_effect hl _ _
  · exact owned_without_effect hl _ _

/-- The table of Withhold on (R21). -/
theorem State.owned_withhold : Owned code ps s (s.withhold p) := by
  unfold State.withhold
  split
  · exact owned_without_effect hl _ _
  · split
    · exact owned_ok hl _ _ (by simp)
    · exact owned_ok hl _ _ (by simp)
    · exact owned_without_effect hl _ _
    · exact owned_without_effect hl _ _
    · exact owned_without_effect hl _ _
    · exact owned_without_effect hl _ _
    · exact owned_without_effect hl _ _

/-- The table of Withhold off (R22). -/
theorem State.owned_unwithhold : Owned code ps s (s.unwithhold p) := by
  unfold State.unwithhold
  split
  · exact owned_ok hl _ _ (by simp)
  · exact owned_without_effect hl _ _

end

theorem owned_revoke (ps : List Byte) (s : State) : Owned .revoke ps s (ownRevoke ps s) := by
  unfold ownRevoke
  split
  · split
    · exact s.owned_revoke rfl _
    · exact owned_badParam
  · exact owned_badParam

theorem owned_withhold (ps : List Byte) (s : State) : Owned .withhold ps s (ownWithhold ps s) := by
  unfold ownWithhold
  split
  · split
    · exact owned_badParam
    · split
      · exact s.owned_withhold rfl _
      · split
        · exact s.owned_unwithhold rfl _
        · exact owned_badParam
  · exact owned_badParam

theorem owned_classSet (ps : List Byte) (s : State) : Owned .classSet ps s (ownClassSet ps s) := by
  unfold ownClassSet
  split
  · split
    · split
      · exact owned_ok rfl _ _ rfl
      · exact owned_badParam
    · exact owned_badParam
  · exact owned_badParam

theorem owned_classGet (ps : List Byte) (s : State) : Owned .classGet ps s (ownClassGet ps s) := by
  unfold ownClassGet
  split
  · split
    · exact owned_ok rfl _ _ rfl
    · exact owned_badParam
  · exact owned_badParam

theorem owned_timingSet (ps : List Byte) (s : State) : Owned .timingSet ps s (ownTimingSet ps s) := by
  unfold ownTimingSet
  split
  · dsimp only
    split
    · exact owned_ok rfl _ _ rfl
    · exact owned_badParam
  · exact owned_badParam

/-- Parameters that read as those of a Bind are nine (R181). -/
theorem length_of_bindParamsOf {ps : List Byte} {b : BindParams} (h : bindParamsOf ps = some b) : ps.length = 9 := by
  unfold bindParamsOf at h
  split at h
  · rename_i a c f hdrop
    have hlen := congrArg List.length hdrop
    simp only [List.length_drop, List.length_cons, List.length_nil] at hlen
    omega
  · cases h

theorem owned_bind (ps : List Byte) (s : State) : Owned .bind ps s (ownBind ps s) := by
  unfold ownBind
  split
  · rename_i b hb
    have hl := length_of_bindParamsOf hb
    rcases s.bind_cases b with ⟨st, d, h, -⟩ | ⟨k, target, -, -, -, -, h⟩
    · rw [h]
      exact owned_without_effect hl st d
    · rw [h, State.acceptBind_eq]
      exact owned_ok hl _ _ ((State.moveAway_pending _ _ _).trans (State.earlyEffect_pending _ _ _ _))
  · exact owned_badParam

theorem owned_unbind (ps : List Byte) (s : State) : Owned .unbind ps s (ownUnbind ps s) := by
  unfold ownUnbind
  split
  · rename_i hps
    rcases s.unbind_cases (tagOfBytes ps) with ⟨st, d, h, -⟩ | ⟨k, b, target, -, -, h⟩
    · rw [h]
      exact owned_without_effect hps.1 st d
    · rw [h]
      exact owned_ok hps.1 _ _ rfl
  · exact owned_badParam

theorem owned_bindingRead (ps : List Byte) (s : State) : Owned .bindingRead ps s (ownBindingRead ps s) := by
  unfold ownBindingRead
  split
  · split
    · exact owned_ok rfl _ _ rfl
    · exact owned_badParam
  · exact owned_badParam

/-! ### O35: every host command -/

/-- Parameters that carry an option are two. -/
theorem length_of_hasOption {ps : List Byte} {o : Byte} (h : hasOption ps o = true) : ps.length = 2 := by
  unfold hasOption at h
  split at h
  · rfl
  · cases h

/-- What becomes of a host request that the port has handed over: its owner answers, or the command leaves the request, whose
length is right, to the other command of its code (log 11). -/
inductive Handled (code : RequestCode) (ps : List Byte) (s : State) : Result → Prop
  | answered {a : Answer} : Owned code ps s a →
      Handled code ps s (.next (a.state.putReply ⟨a.status, code.byte, a.data⟩))
  | left : ps.length = paramLength code → Handled code ps s (.next s)

theorem handled_serve {code : RequestCode} {ps : List Byte} {s : State} {own : State → Answer} (ha : Asked s code ps)
    (hr : Owned code ps s (own s)) : Handled code ps s (serve code ps own s) := by
  rw [serve_asked own ha]
  exact .answered hr

theorem handled_optional {code : RequestCode} {ps : List Byte} {s : State} {own : State → Answer} (o : Byte)
    (hl : paramLength code = 2) (ha : Asked s code ps) (hr : Owned code ps s (own s)) :
    Handled code ps s (if hasOption ps o then .next s else serve code ps own s) := by
  split
  · exact .left ((length_of_hasOption ‹_›).trans hl.symm)
  · exact handled_serve ha hr

/-- Every host command finds the owner of its request (R157). -/
theorem exec_handled {c : Instr} {code : RequestCode} {ps : List Byte} {s : State} (hc : hostRequest c = some (code, ps))
    (ha : Asked s code ps) : Handled code ps s (exec c s) := by
  cases c <;> cases hc
  case nop => exact handled_serve ha (owned_withoutParams rfl rfl rfl)
  case ident => exact handled_serve ha (owned_withoutParams rfl rfl rfl)
  case status => exact handled_serve ha (owned_withoutParams rfl rfl rfl)
  case acknowledge => exact handled_serve ha (owned_acknowledge ps s)
  case enable => exact handled_serve ha (owned_enable ps s)
  case lookupAddress => exact handled_optional _ rfl ha (owned_lookupAddress ps s)
  case lookupAddressClear => exact handled_optional _ rfl ha (owned_lookupAddress ps s)
  case lookupTag => exact handled_serve ha (owned_lookupTag ps s)
  case scan => exact handled_serve ha (owned_withoutParams rfl rfl (s.clearMarks_pending _))
  case freeList => exact handled_serve ha (owned_freeList ps s)
  case revoke => exact handled_serve ha (owned_revoke ps s)
  case withholdOn => exact handled_optional _ rfl ha (owned_withhold ps s)
  case withholdOff => exact handled_optional _ rfl ha (owned_withhold ps s)
  case classSet => exact handled_serve ha (owned_classSet ps s)
  case classGet => exact handled_serve ha (owned_classGet ps s)
  case timingSet => exact handled_serve ha (owned_timingSet ps s)
  case timingGet => exact handled_serve ha (owned_withoutParams rfl rfl rfl)
  case bind => exact handled_serve ha (owned_bind ps s)
  case unbind => exact handled_serve ha (owned_unbind ps s)
  case bindingRead => exact handled_serve ha (owned_bindingRead ps s)
  case restart => exact handled_serve ha (owned_withoutParams rfl rfl rfl)

/-- Settles O35: the owner of the request refuses it, and the port puts the answer into the buffer. -/
theorem refusedRequestChangesNothing : Obligations.RefusedRequestChangesNothing := by
  unfold Obligations.RefusedRequestChangesNothing
  intro c s code ps hc ha
  have handled := exec_handled hc ha
  generalize exec c s = result at handled ⊢
  cases handled with
  | left hl =>
    refine ⟨fun hlen => absurd hl hlen, ?_⟩
    rintro _ r ⟨⟩ hb
    cases ha.2.symm.trans hb
  | answered hr =>
    refine ⟨fun hlen => ?_, ?_⟩
    · rw [hr.badLength hlen]
      rfl
    · rintro _ _ ⟨⟩ ⟨⟩ hst
      rw [hr.unchanged hst]
      rfl

end Sys2Proof.Machine
end

section
/-! PROOFS. Every command answers a next state and leaves the queue of commands alone (O3). -/

namespace Sys2Proof.Machine

open Sys2Proof.Safety

/-! ### When an event is taken -/

/-- A result that answers a next state, with the queue of commands as it was. -/
def KeepsQueue (s : State) (r : Result) : Prop := ∃ t, r = .next t ∧ t.pending = s.pending

theorem keepsQueue_next {s t : State} (h : t.pending = s.pending) : KeepsQueue s (.next t) := ⟨t, rfl, h⟩

section
variable {f : State → State} (hf : ∀ u, (f u).pending = u.pending) (s : State)
include hf

theorem keepsQueue_whenReady : KeepsQueue s (whenReady f s) := by
  refine keepsQueue_next ?_
  split
  · exact hf s
  · rfl

theorem keepsQueue_whenRunning : KeepsQueue s (whenRunning f s) := by
  refine keepsQueue_next ?_
  split
  · exact hf s
  · rfl

theorem keepsQueue_takeRequest (r : Report) : KeepsQueue s (takeRequest r f s) := by
  refine keepsQueue_whenReady (fun u => ?_) s
  split
  · rename_i v hv
    obtain ⟨rest, rfl⟩ := takeReport_eq_some hv
    exact hf _
  · rfl

theorem keepsQueue_takeNews (w : Report → Bool) : KeepsQueue s (takeNews w f s) := by
  refine keepsQueue_whenRunning (fun u => ?_) s
  split
  · rename_i v hv
    obtain ⟨rest, rfl⟩ := takeReport_eq_some hv
    split
    · exact hf _
    · rfl
  · rfl

end

theorem actsWithoutRunning_of_hostRequest {c : Instr} {r : RequestCode × List Byte} (hc : hostRequest c = some r) :
    actsWithoutRunning c = false := by
  cases c <;> cases hc <;> rfl

/-- A request of the host is absent, or its owner answers it (R157). -/
theorem keepsQueue_request {c : Instr} {code : RequestCode} {ps : List Byte} (hc : hostRequest c = some (code, ps))
    (s : State) : KeepsQueue s (exec c s) := by
  by_cases hp : s.power = .running
  · by_cases hb : s.port.buffer = .pending code ps
    · have handled := exec_handled hc ⟨hp, hb⟩
      generalize exec c s = result at handled ⊢
      cases handled with
      | answered ha => exact keepsQueue_next ha.queue
      | left => exact keepsQueue_next rfl
    · rw [exec_not_asked hc hb]
      exact keepsQueue_next rfl
  · rw [exec_not_running hp (actsWithoutRunning_of_hostRequest hc)]
    exact keepsQueue_next rfl

/-! ### The second, and the events of the bus engine -/

theorem keepsQueue_leaseClockTick (s : State) : KeepsQueue s (execLeaseClockTick s) := by
  refine keepsQueue_whenReady (fun u => ?_) s
  rw [State.withLease_pending, State.endSecond_pending]

theorem keepsQueue_busStartByOther (s : State) : KeepsQueue s (execBusStartByOther s) := by
  refine keepsQueue_whenRunning (fun u => ?_) s
  split <;> simp

theorem keepsQueue_ownStart (s : State) : KeepsQueue s (execOwnStart s) := by
  refine keepsQueue_whenRunning (fun u => ?_) s
  split
  · split <;> simp
  · rfl

theorem keepsQueue_currentMessageChoice (s : State) : KeepsQueue s (execCurrentMessageChoice s) := by
  refine keepsQueue_whenRunning (fun u => ?_) s
  split <;> simp

theorem keepsQueue_arbitrationLost (bit : Nat) (s : State) : KeepsQueue s (execArbitrationLost bit s) := by
  refine keepsQueue_whenRunning (fun u => ?_) s
  split
  · split <;> rfl
  · rfl

theorem keepsQueue_transactionReceived (bytes : List Byte) (s : State) : KeepsQueue s (execTransactionReceived bytes s) := by
  refine keepsQueue_whenRunning (fun u => ?_) s
  split
  · split <;> simp
  · rfl

theorem keepsQueue_brokenTransaction (b : Breaker) (s : State) : KeepsQueue s (execBrokenTransaction b s) := by
  refine keepsQueue_whenRunning (fun u => ?_) s
  split <;> rfl

theorem keepsQueue_busStop (s : State) : KeepsQueue s (execBusStop s) := by
  refine keepsQueue_whenRunning (fun u => ?_) s
  split <;> simp

theorem keepsQueue_busIdleGap (s : State) : KeepsQueue s (execBusIdleGap s) := by
  refine keepsQueue_whenRunning (fun u => ?_) s
  split <;> rfl

theorem keepsQueue_ownTransmissionAck (s : State) : KeepsQueue s (execOwnTransmissionAck s) := by
  refine keepsQueue_whenRunning (fun u => ?_) s
  split <;> simp

theorem keepsQueue_attempt (r : AttemptResult) (s : State) : KeepsQueue s (execAttempt r s) := by
  refine keepsQueue_whenRunning (fun u => ?_) s
  split
  · cases r <;> simp
  · rfl

theorem keepsQueue_stuckBus (s : State) : KeepsQueue s (execStuckBus s) := by
  refine keepsQueue_whenRunning (fun u => ?_) s
  split
  · rfl
  · split <;> simp

theorem keepsQueue_faultExit (s : State) : KeepsQueue s (execFaultExit s) := by
  refine keepsQueue_whenRunning (fun u => ?_) s
  split <;> rfl

/-! ### RELEASE and the outcomes of messages -/

theorem keepsQueue_release (p : Pool) (t : Tag) (s : State) : KeepsQueue s (execRelease p t s) := by
  refine keepsQueue_takeRequest (fun u => ?_) s _
  split
  · split <;> simp
  · split <;> simp
  · rfl

theorem keepsQueue_offerCompletion (t : Tag) (p : Pool) (s : State) : KeepsQueue s (execOfferCompletion t p s) := by
  refine keepsQueue_takeNews (fun u => ?_) s _
  split <;> rfl

theorem keepsQueue_offerDrop (t : Tag) (p : Pool) (s : State) : KeepsQueue s (execOfferDrop t p s) := by
  refine keepsQueue_takeNews (fun u => ?_) s _
  split
  · split <;> simp
  · rfl

theorem keepsQueue_probeCompletion (p : Pool) (t : Tag) (s : State) : KeepsQueue s (execProbeCompletion p t s) := by
  refine keepsQueue_takeNews (fun u => ?_) s _
  split <;> simp

theorem keepsQueue_probeDrop (p : Pool) (t : Tag) (s : State) : KeepsQueue s (execProbeDrop p t s) := by
  refine keepsQueue_takeNews (fun u => ?_) s _
  split <;> simp

theorem keepsQueue_evictOutcome (p : Pool) (s : State) : KeepsQueue s (execEvictOutcome p s) := by
  refine keepsQueue_takeNews (fun u => ?_) s _
  split <;> rfl

/-! ### Frames, the store and the resets -/

theorem keepsQueue_hselNFall (hsck : Bool) (s : State) : KeepsQueue s (execHselNFall hsck s) := by
  refine keepsQueue_next ?_
  split
  · rfl
  · split <;> rfl

theorem State.dispatch_pending (s : State) (v : Verdict) : (s.dispatch v).pending = s.pending := by
  cases v <;> rfl

theorem keepsQueue_hselNRise (bytes : List Byte) (edges : Fin 8) (s : State) : KeepsQueue s (execHselNRise bytes edges s) := by
  refine keepsQueue_next ?_
  dsimp only
  split
  · rfl
  · split
    · exact State.dispatch_pending _ _
    · rfl

theorem keepsQueue_scanSectorErase (reads : Sector) (s : State) : KeepsQueue s (execScanSectorErase reads s) := by
  refine keepsQueue_whenRunning (fun u => ?_) s
  split <;> rfl

theorem keepsQueue_scanRepair (image : Sector) (mark : Bool) (erase retry : Sector) (s : State) :
    KeepsQueue s (execScanRepair image mark erase retry s) := by
  refine keepsQueue_whenRunning (fun u => ?_) s
  split <;> rfl

theorem keepsQueue_scanEnd (s : State) : KeepsQueue s (execScanEnd s) := by
  refine keepsQueue_whenRunning (fun u => ?_) s
  split <;> rfl

theorem keepsQueue_imageProgram (reads : Sector) (s : State) : KeepsQueue s (execImageProgram reads s) := by
  refine keepsQueue_whenRunning (fun u => ?_) s
  split
  · split <;> rfl
  · rfl

theorem keepsQueue_validMark (reads : Bool) (s : State) : KeepsQueue s (execValidMark reads s) := by
  refine keepsQueue_whenRunning (fun u => ?_) s
  split
  · split
    · split
      · dsimp only
        split <;> simp
      · rfl
    · rfl
  · rfl

theorem keepsQueue_targetErase (reads : Sector) (s : State) : KeepsQueue s (execTargetErase reads s) := by
  refine keepsQueue_whenRunning (fun u => ?_) s
  split
  · split <;> simp
  · rfl

theorem keepsQueue_supersededErase (reads : Sector) (s : State) : KeepsQueue s (execSupersededErase reads s) := by
  refine keepsQueue_whenRunning (fun u => ?_) s
  split
  · split
    · split
      · exact State.rewriteOutcome_pending _ _ _
      · split
        · exact State.rewriteOutcome_pending _ _ _
        · rfl
    · rfl
  · rfl

theorem keepsQueue_powerLoss (cut : FlashCut) (s : State) : KeepsQueue s (execPowerLoss cut s) := by
  refine keepsQueue_next ?_
  split <;> rfl

theorem keepsQueue_hardResetEnd (s : State) : KeepsQueue s (execHardResetEnd s) := by
  refine keepsQueue_next ?_
  split <;> rfl

/-! ### O3: every command -/

/-- Every command answers a next state, with the queue as it was. -/
theorem exec_keepsQueue (c : Instr) (s : State) : KeepsQueue s (exec c s) := by
  cases c with
  | hardReset spd cut => exact keepsQueue_next rfl
  | hardResetEnd => exact keepsQueue_hardResetEnd s
  | powerLoss cut => exact keepsQueue_powerLoss cut s
  | scanSectorErase reads => exact keepsQueue_scanSectorErase reads s
  | scanRepair image mark erase retry => exact keepsQueue_scanRepair image mark erase retry s
  | scanEnd => exact keepsQueue_scanEnd s
  | imageProgram reads => exact keepsQueue_imageProgram reads s
  | validMark reads => exact keepsQueue_validMark reads s
  | targetErase reads => exact keepsQueue_targetErase reads s
  | supersededErase reads => exact keepsQueue_supersededErase reads s
  | leaseClockTick => exact keepsQueue_leaseClockTick s
  | expiry p => exact keepsQueue_whenReady (fun u => u.expire_pending p) s
  | endOfQuarantine p => exact keepsQueue_whenReady (fun u => u.endQuarantine_pending p) s
  | adoptionWindowClose => exact keepsQueue_whenReady (fun u => u.closeWindow_pending) s
  | offerTimeout p => exact keepsQueue_whenReady (fun u => u.lapseRunOut_pending p) s
  | probeTimeout p => exact keepsQueue_whenReady (fun u => u.probeRunOut_pending p) s
  | busStartByOther => exact keepsQueue_busStartByOther s
  | ownStart => exact keepsQueue_ownStart s
  | currentMessageChoice => exact keepsQueue_currentMessageChoice s
  | arbitrationLost bit => exact keepsQueue_arbitrationLost bit s
  | transactionReceived bytes => exact keepsQueue_transactionReceived bytes s
  | brokenTransaction b => exact keepsQueue_brokenTransaction b s
  | busStop => exact keepsQueue_busStop s
  | busIdleGap => exact keepsQueue_busIdleGap s
  | ownTransmissionAck => exact keepsQueue_ownTransmissionAck s
  | attempt r => exact keepsQueue_attempt r s
  | stuckBus => exact keepsQueue_stuckBus s
  | faultExit => exact keepsQueue_faultExit s
  | join t cls hint => exact keepsQueue_takeRequest (fun u => u.join_pending t cls hint) s _
  | claim t a => exact keepsQueue_takeRequest (fun u => u.claim_pending t a) s _
  | renew src t cls => exact keepsQueue_takeRequest (fun u => u.renew_pending src t cls) s _
  | release src t => exact keepsQueue_release src t s
  | resolve src q => exact keepsQueue_takeRequest (fun u => u.enqueue_pending _) s _
  | whois src a => exact keepsQueue_takeRequest (fun u => u.enqueue_pending _) s _
  | snoopReport p => exact keepsQueue_takeNews (fun u => u.snoop_pending p) s _
  | offerCompletion t p => exact keepsQueue_offerCompletion t p s
  | offerDrop t p => exact keepsQueue_offerDrop t p s
  | probeCompletion p t => exact keepsQueue_probeCompletion p t s
  | probeDrop p t => exact keepsQueue_probeDrop p t s
  | evictOutcome p => exact keepsQueue_evictOutcome p s
  | replyOutcome => exact keepsQueue_takeNews (fun _ => rfl) s _
  | hselNFall hsck => exact keepsQueue_hselNFall hsck s
  | hselNRise bytes edges => exact keepsQueue_hselNRise bytes edges s
  | nop _ => exact keepsQueue_request rfl s
  | ident _ => exact keepsQueue_request rfl s
  | status _ => exact keepsQueue_request rfl s
  | acknowledge _ => exact keepsQueue_request rfl s
  | enable _ => exact keepsQueue_request rfl s
  | lookupAddress _ => exact keepsQueue_request rfl s
  | lookupAddressClear _ => exact keepsQueue_request rfl s
  | lookupTag _ => exact keepsQueue_request rfl s
  | scan _ => exact keepsQueue_request rfl s
  | freeList _ => exact keepsQueue_request rfl s
  | revoke _ => exact keepsQueue_request rfl s
  | withholdOn _ => exact keepsQueue_request rfl s
  | withholdOff _ => exact keepsQueue_request rfl s
  | classSet _ => exact keepsQueue_request rfl s
  | classGet _ => exact keepsQueue_request rfl s
  | timingSet _ => exact keepsQueue_request rfl s
  | timingGet _ => exact keepsQueue_request rfl s
  | bind _ => exact keepsQueue_request rfl s
  | unbind _ => exact keepsQueue_request rfl s
  | bindingRead _ => exact keepsQueue_request rfl s
  | restart _ _ _ => exact keepsQueue_request rfl s

/-- Settles O3, command by command. -/
theorem everyCommandAnswersAndKeepsTheQueue : Obligations.EveryCommandAnswersAndKeepsTheQueue := by
  unfold Obligations.EveryCommandAnswersAndKeepsTheQueue
  exact exec_keepsQueue

end Sys2Proof.Machine
end

section
/-! PROOFS. The attention unit: Acknowledge, Enable, the level of CHANGE and ATN_N (O38). -/

namespace Sys2Proof.Machine

open Sys2Proof.Safety

/-! ### The cause flags in their positions (10.4) -/

theorem getLsbD_flagBit (b : Bool) (i : Nat) {j : Nat} (hj : j < 8) :
    (flagBit b i).getLsbD j = (b && decide (i = j)) := by
  cases b with
  | false => simp [flagBit]
  | true =>
    have hiff : i ≤ j ∧ j - i = 0 ↔ i = j := by omega
    rw [Bool.eq_iff_iff]
    simpa [flagBit, hj] using hiff

/-- The cause flags by their positions: START, CHANGE, CONFLICT, EXHAUST, BUSFAULT, RIVAL, STORE, PORT. -/
def causeBits (f : Latched) (change : Bool) : Vector Bool 8 :=
  #v[f.start, change, f.conflict, f.exhaust, f.busFault, f.rival, f.store, f.port]

theorem getLsbD_causeByte (f : Latched) (change : Bool) (i : Fin 8) :
    (causeByte f change).getLsbD i = (causeBits f change)[i] := by
  simp only [causeByte, BitVec.getLsbD_or, getLsbD_flagBit _ _ i.isLt]
  fin_cases i <;> simp [causeBits]

theorem State.getLsbD_causeFlags (s : State) (i : Fin 8) :
    s.causeFlags.getLsbD i = (causeBits s.att.latched s.changeLevel)[i] :=
  getLsbD_causeByte _ _ i

/-- CHANGE is level-driven (R187). -/
theorem State.changeLevel_iff {s : State} : s.changeLevel = true ↔ ∃ p : Pool, (s.entry p).mark = true := by
  simp [State.changeLevel, pools]

/-! ### Acknowledge and Enable (R168, R169, R190) -/

/-- A flag survives an Acknowledge that does not name it, and CHANGE survives every one (R190). -/
theorem getLsbD_causeByte_acknowledge (f : Latched) (change : Bool) (mask : Byte) (i : Fin 8) :
    (causeByte (f.acknowledge mask) change).getLsbD i =
      ((causeByte f change).getLsbD i && (!mask.getLsbD i || i == 1)) := by
  rw [getLsbD_causeByte, getLsbD_causeByte]
  fin_cases i <;> simp [causeBits, Latched.acknowledge]

/-- The state after the owner of an Acknowledge has cleared the named flags. -/
def State.acknowledged (s : State) (mask : Byte) : State :=
  s.withAtt { s.att with latched := s.att.latched.acknowledge mask }

theorem exec_acknowledge {s : State} {mask : Byte} (h : Asked s .acknowledge [mask]) : exec (.acknowledge [mask]) s =
    .next (replied (s.acknowledged mask) .ok .acknowledge [(s.acknowledged mask).causeFlags]) :=
  serve_asked _ h

theorem exec_enable {s : State} {enables : Byte} (h : Asked s .enable [enables]) : exec (.enable [enables]) s =
    .next (replied { s with att := { s.att with enables := enables } } .ok .enable [s.causeFlags, enables]) :=
  serve_asked _ h

/-! ### ATN_N (R189) -/

theorem ne_zero_iff_exists_getLsbD {w : Nat} {x : BitVec w} : x ≠ 0 ↔ ∃ i : Fin w, x.getLsbD i = true := by
  rw [← not_iff_not, not_not, not_exists]
  constructor
  · rintro rfl i
    simp
  · intro h
    refine BitVec.eq_of_getLsbD_eq fun i hi => ?_
    simpa using h ⟨i, hi⟩

theorem State.atnLow_iff {s : State} : s.atnLow = true ↔
    s.power = .running ∧ ∃ i : Fin 8, s.causeFlags.getLsbD i = true ∧ s.att.enables.getLsbD i = true := by
  simp only [State.atnLow, Bool.and_eq_true, beq_iff_eq, bne_iff_ne, ne_zero_iff_exists_getLsbD, BitVec.getLsbD_and]

/-- Settles O38: the owners' answers, and the flags position by position. -/
theorem acknowledgeEnableAndAttention : Obligations.AcknowledgeEnableAndAttention := by
  unfold Obligations.AcknowledgeEnableAndAttention
  refine ⟨fun s b => ⟨fun h => ?acknowledge, exec_enable⟩, fun s => ⟨?change, ?latched, State.atnLow_iff⟩⟩
  case acknowledge =>
    exact ⟨_, exec_acknowledge h, rfl, rfl, getLsbD_causeByte_acknowledge s.att.latched s.changeLevel b⟩
  case change =>
    rw [← State.changeLevel_iff]
    exact Bool.eq_iff_iff.1 (s.getLsbD_causeFlags 1)
  case latched =>
    exact ⟨s.getLsbD_causeFlags 0, s.getLsbD_causeFlags 2, s.getLsbD_causeFlags 3, s.getLsbD_causeFlags 4,
      s.getLsbD_causeFlags 5, s.getLsbD_causeFlags 6, s.getLsbD_causeFlags 7⟩

end Sys2Proof.Machine
end

section
/-! PROOFS. The lease record field by field, Lookup Address and Lookup Tag (O39). -/

namespace Sys2Proof.Machine

open Sys2Proof.Safety

/-! ### The lease record (R171, 10.5) -/

/-- The flags of a lease record: pinned, mark, holder, last holder, probe due, evict due. -/
def State.leaseFlags (s : State) (p : Pool) : Byte :=
  flagBit (s.store.pinned p) 0 ||| flagBit (s.entry p).mark 1 ||| flagBit (s.leaseOf p).holder.isSome 2 |||
    flagBit (s.leaseOf p).last.isSome 3 ||| flagBit (s.leaseOf p).probeDue 4 ||| flagBit (s.entry p).evict.isSet 5

theorem State.leaseFlags_spec (s : State) (p : Pool) :
    (s.leaseFlags p).getLsbD 0 = s.store.pinned p ∧ (s.leaseFlags p).getLsbD 1 = (s.entry p).mark ∧
      (s.leaseFlags p).getLsbD 2 = (s.leaseOf p).holder.isSome ∧ (s.leaseFlags p).getLsbD 3 = (s.leaseOf p).last.isSome ∧
      (s.leaseFlags p).getLsbD 4 = (s.leaseOf p).probeDue ∧ (s.leaseFlags p).getLsbD 5 = (s.entry p).evict.isSet ∧
      (s.leaseFlags p).getLsbD 6 = false ∧ (s.leaseFlags p).getLsbD 7 = false := by
  simp only [State.leaseFlags, BitVec.getLsbD_or, getLsbD_flagBit, Nat.reduceLT]
  simp

/-! ### Lookup Address (R170) -/

theorem exec_lookupAddress {s : State} {a o : Byte} (h : Asked s .lookupAddress [a, o]) (ho : o ≠ 0x01) {x : Answer}
    (hx : ownLookupAddress [a, o] s = x) :
    exec (.lookupAddress [a, o]) s = .next (replied x.state x.status .lookupAddress x.data) := by
  have hoption : ¬ hasOption [a, o] 0x01 = true := by simpa [hasOption] using ho
  subst hx
  rw [exec, execLookupAddress, if_neg hoption, serve_asked _ h]
  rfl

theorem exec_lookupAddressClear {s : State} {a o : Byte} (h : Asked s .lookupAddress [a, o]) (ho : o ≠ 0x00) {x : Answer}
    (hx : ownLookupAddress [a, o] s = x) :
    exec (.lookupAddressClear [a, o]) s = .next (replied x.state x.status .lookupAddress x.data) := by
  have hoption : ¬ hasOption [a, o] 0x00 = true := by simpa [hasOption] using ho
  subst hx
  rw [exec, execLookupAddressClear, if_neg hoption, serve_asked _ h]
  rfl

theorem ownLookupAddress_read (s : State) (p : Pool) :
    ownLookupAddress [poolByte p, 0x00] s = .ok s (s.leaseRecord p) := by
  simp only [ownLookupAddress, poolOfByte_poolByte, if_true]

theorem ownLookupAddress_clear (s : State) (p : Pool) : ownLookupAddress [poolByte p, 0x01] s =
    .ok (s.setEntry p { s.entry p with conflicts := 0 }) (s.leaseRecord p) := by
  simp only [ownLookupAddress, poolOfByte_poolByte, if_true]
  exact if_neg (by decide)

/-- An address outside the pool and an option other than 0x00 and 0x01 are BAD_PARAM. -/
theorem ownLookupAddress_bad {a o : Byte} (h : (∀ p, a ≠ poolByte p) ∨ (o ≠ 0x00 ∧ o ≠ 0x01)) (s : State) :
    ownLookupAddress [a, o] s = .badParam s := by
  cases hp : poolOfByte a with
  | none => simp only [ownLookupAddress, hp]
  | some p =>
    obtain ⟨h0, h1⟩ := h.resolve_left fun hn => hn p (poolByte_of_poolOfByte hp)
    simp only [ownLookupAddress, hp, if_neg h0, if_neg h1]

/-! ### Lookup Tag (R172) -/

theorem exec_lookupTag {s : State} {ps : List Byte} (h : Asked s .lookupTag ps) {st : ReplyStatus} {d : List Byte}
    (hx : ownLookupTag ps s = ⟨s, st, d⟩) : exec (.lookupTag ps) s = .next (replied s st .lookupTag d) := by
  rw [exec, execLookupTag, serve_asked _ h, hx]
  rfl

theorem ownLookupTag_invalid {t : Tag} (h : validTag t = false) (s : State) :
    ownLookupTag (tagBytes t) s = .badParam s := by
  rw [ownLookupTag, tagOfBytes_tagBytes]
  exact if_neg (by simp [h])

section
variable {s : State} {t : Tag} {p : Pool} (hv : validTag t = true)
include hv

/-- A tag that holds an address: its lease record, and its slot in the shadow, if it has one. -/
theorem ownLookupTag_held (hp : s.holding t = some p) {slot : Option BindSlot} (hslot : s.store.slotOf t = slot) :
    ownLookupTag (tagBytes t) s =
      .ok s ([0x01] ++ s.leaseRecord p ++ [slot.elim 0xFF fun k => byteOf k.val]) := by
  rw [ownLookupTag, if_pos ⟨length_tagBytes t, by rw [tagOfBytes_tagBytes, hv]⟩]
  simp only [tagOfBytes_tagBytes, hp, hslot]
  cases slot <;> rfl

/-- A tag that holds no address, and its binding. -/
theorem ownLookupTag_bound (hn : s.holding t = none) {k : BindSlot} {b : Binding} (hk : s.store.slotOf t = some k)
    (hb : s.store.bindingOf t = some b) : ownLookupTag (tagBytes t) s =
      .ok s ([0x02] ++ s.store.bindingRecord k ++ [(s.leaseOf b.addr).state.code]) := by
  rw [ownLookupTag, if_pos ⟨length_tagBytes t, by rw [tagOfBytes_tagBytes, hv]⟩]
  simp only [tagOfBytes_tagBytes, hn, hk, hb]

theorem ownLookupTag_unknown (hn : s.holding t = none) (hk : s.store.slotOf t = none) :
    ownLookupTag (tagBytes t) s = .notFound s := by
  rw [ownLookupTag, if_pos ⟨length_tagBytes t, by rw [tagOfBytes_tagBytes, hv]⟩]
  simp only [tagOfBytes_tagBytes, hn, hk]

end

/-- Settles O39: the record by its bytes, and each lookup by where its address or its tag is found. -/
theorem leaseRecordAndLookups : Obligations.LeaseRecordAndLookups := by
  unfold Obligations.LeaseRecordAndLookups
  refine ⟨fun s p => ?record, fun s => ⟨fun p h => ?_, fun p h => ?_, fun a b hbad h => ⟨fun ho => ?_, fun ho => ?_⟩,
    fun t h hone hshadow => ⟨fun hv => ?_, fun hv => ⟨fun p hp => ?held, fun hn => ?absent⟩⟩⟩⟩
  case record =>
    intro d e
    refine ⟨s.length_leaseRecord p, rfl, rfl, ⟨s.leaseFlags p, rfl, s.leaseFlags_spec p⟩, ?cls, ?tag, rfl, rfl, rfl⟩
    case cls =>
      have hbyte : d[3]? = some (byteOf ((e.lease.cls.map (·.val)).getD 0)) := rfl
      rw [hbyte]
      cases e.lease.cls <;> rfl
    case tag =>
      have hbytes : (d.drop 4).take 6 = tagBytes ((e.lease.holder <|> e.lease.last).getD 0) := rfl
      rw [hbytes]
      cases e.lease.holder <;> rfl
  · exact exec_lookupAddress h (by decide) (ownLookupAddress_read s p)
  · exact exec_lookupAddressClear h (by decide) (ownLookupAddress_clear s p)
  · exact exec_lookupAddress h ho (ownLookupAddress_bad hbad s)
  · exact exec_lookupAddressClear h ho (ownLookupAddress_bad hbad s)
  · exact exec_lookupTag h (ownLookupTag_invalid hv s)
  case held =>
    have hp := State.holding_of_holder hone hp
    refine ⟨?_, fun hu => exec_lookupTag h (ownLookupTag_held hv hp (State.slotOf_eq_none hu))⟩
    rintro k b hk rfl
    exact exec_lookupTag h (ownLookupTag_held hv hp (Store.slotOf_of_binding hshadow hk))
  case absent =>
    have hn := State.holding_eq_none.2 hn
    refine ⟨?_, fun hu => exec_lookupTag h (ownLookupTag_unknown hv hn (State.slotOf_eq_none hu))⟩
    rintro k b hk rfl
    exact exec_lookupTag h (ownLookupTag_bound hv hn (Store.slotOf_of_binding hshadow hk)
      (Store.bindingOf_of_binding hshadow hk))

end Sys2Proof.Machine
end

section
/-! PROOFS. NOP and Ident with the frames that carry them (O36), Free List (O41) and Class Get (O45). -/

namespace Sys2Proof.Machine

open Sys2Proof.Safety

/-! ### O36: NOP and Ident -/

/-- A frame delivered what it was owed: nothing, or a reply with all its bytes (R154). -/
theorem FrameOut.delivered_of_owed {out : FrameOut} {n : Nat}
    (h : out = .idleFill ∨ ∃ r, out = .reply r ∧ r.data.length + 4 ≤ n) : out.delivered n = true := by
  rcases h with rfl | ⟨r, rfl, hn⟩
  · rfl
  · exact FrameOut.delivered_reply_iff.2 hn

/-- The port holds a request that came in a frame without parameters. -/
def State.holdingBare (s : State) (c : RequestCode) : State := { s with port := ⟨false, none, .pending c []⟩ }

/-- A frame without parameters whose code passes the gate hands its request on, ready or not (R156, R157). -/
theorem exec_hselNRise_bare {s : State} {f : Frame} {c : RequestCode} {padding : List Byte} (hf : s.port.frame = some f)
    (hout : f.out = .idleFill ∨ ∃ r, f.out = .reply r ∧ r.data.length + 4 ≤ padding.length + 3)
    (hgate : c.passesGate = true) :
    exec (.hselNRise (withCheck [c.byte, 0x00] ++ padding) 0) s = .next (s.holdingBare c) := by
  have hverdict : judge s.lease.ready (withCheck [c.byte, 0x00] ++ padding) false = .execute c [] := by
    refine (judge_complete (len := 0x00) (params := []) (Nat.zero_le _) rfl).trans ?_
    rw [if_pos rfl, requestOfByte_byte]
    exact if_pos (.inr hgate)
  have hlen : (withCheck [c.byte, 0x00] ++ padding).length = padding.length + 3 := by simp [withCheck]
  rw [exec_hselNRise_delivered hf (FrameOut.delivered_of_owed (hlen ▸ hout))]
  exact congrArg (Host.Outcome.next ∘ s.endFrame.dispatch) hverdict

theorem asked_holdingBare {s : State} (c : RequestCode) (hp : s.power = .running) : Asked (s.holdingBare c) c [] :=
  ⟨hp, rfl⟩

/-- The request bytes of a NOP with their check byte (R197). -/
theorem withCheck_nop : withCheck [RequestCode.nop.byte, 0x00] = [0x00, 0x00, 0xD7] := by
  have hcode : crcByte 0xFF 0x00 = 0xF3 := by decide
  have hlen : crcByte 0xF3 0x00 = 0xD7 := by decide
  simp only [withCheck, crc8, RequestCode.byte, List.foldl_cons, List.foldl_nil, hcode, hlen,
    List.cons_append, List.nil_append]

theorem exec_nop {s : State} (h : Asked s .nop []) : exec (.nop []) s = .next (replied s .ok .nop []) :=
  serve_asked _ h

theorem exec_ident {s : State} (h : Asked s .ident []) :
    exec (.ident []) s = .next (replied s .ok .ident [0x41, 0x12, 0x01, 112, 8, 32, 8]) :=
  serve_asked _ h

/-- Settles O36: the owners' answers, and the frame that hands each request on. -/
theorem nopAndIdent : Obligations.NopAndIdent := by
  unfold Obligations.NopAndIdent
  refine ⟨fun s => ⟨exec_nop, fun m out padding hp hf hout => ?_⟩,
    fun s => ⟨exec_ident, fun m out padding hp hf hout => ?_⟩⟩
  · rw [← withCheck_nop]
    exact ⟨_, exec_hselNRise_bare hf hout rfl, rfl, exec_nop (asked_holdingBare .nop hp)⟩
  · exact ⟨_, exec_hselNRise_bare (c := .ident) hf hout rfl, rfl, exec_ident (asked_holdingBare .ident hp)⟩

/-! ### O41: Free List -/

theorem exec_freeList {s : State} {ps : List Byte} (h : Asked s .freeList ps) {st : ReplyStatus} {d : List Byte}
    (hx : ownFreeList ps s = ⟨s, st, d⟩) : exec (.freeList ps) s = .next (replied s st .freeList d) := by
  rw [exec, execFreeList, serve_asked _ h, hx]
  rfl

theorem ownFreeList_inside {start : Byte} (h : start.toNat ≤ 111) (s : State) :
    ownFreeList [start] s = .ok s (s.freeListData start.toNat) := if_pos h

theorem ownFreeList_outside {start : Byte} (h : 111 < start.toNat) (s : State) : ownFreeList [start] s = .badParam s :=
  if_neg (Nat.not_le.2 h)

/-- The address bytes of up to sixteen places of the free list (R174). -/
def State.freeListPart (s : State) (start : Nat) : List Byte := ((s.lease.freeList.drop start).take 16).map poolByte

theorem State.length_freeListPart (s : State) (start : Nat) :
    (s.freeListPart start).length = min 16 (s.lease.freeList.length - start) := by
  simp [State.freeListPart]

theorem State.getElem?_freeListPart (s : State) (start : Nat) {i : Nat} (h : i < 16) :
    (s.freeListPart start)[i]? = (s.lease.freeList[start + i]?).map poolByte := by
  rw [State.freeListPart, List.getElem?_map, List.getElem?_take_of_lt h, List.getElem?_drop]

theorem State.freeListData_eq (s : State) (start : Byte) : s.freeListData start.toNat =
    [byteOf s.lease.freeList.length, start, byteOf (s.freeListPart start.toNat).length] ++ s.freeListPart start.toNat := by
  simp only [State.freeListData, State.freeListPart, byteOf_toNat, List.length_map]

/-- Settles O41: the part of the list from the position on. -/
theorem freeListRead : Obligations.FreeListRead := by
  unfold Obligations.FreeListRead
  refine fun s start h => ⟨fun hs => exec_freeList h (ownFreeList_outside hs s), fun hs =>
    ⟨_, s.freeListPart start.toNat, ?_, s.length_freeListPart _, rfl, fun i hi => ?_⟩⟩
  · rw [exec_freeList h (ownFreeList_inside hs s), s.freeListData_eq]
  · rw [s.length_freeListPart] at hi
    exact s.getElem?_freeListPart _ (by omega)

/-! ### O45: Class Get -/

theorem exec_classGet {s : State} {ps : List Byte} (h : Asked s .classGet ps) {st : ReplyStatus} {d : List Byte}
    (hx : ownClassGet ps s = ⟨s, st, d⟩) : exec (.classGet ps) s = .next (replied s st .classGet d) := by
  rw [exec, execClassGet, serve_asked _ h, hx]
  rfl

theorem ownClassGet_class {c : Byte} {k : ClassId} (h : c.toNat = k.val) (s : State) :
    ownClassGet [c] s = .ok s (s.classRecord k) := by
  have hc : classOfByte c = some k := classOfByte_eq_some_iff.2 (by rw [← h, byteOf_toNat])
  simp only [ownClassGet, hc]

theorem ownClassGet_outside {c : Byte} (h : 4 ≤ c.toNat) (s : State) : ownClassGet [c] s = .badParam s := by
  simp only [ownClassGet, classOfByte_eq_none h]

theorem exec_restart {s : State} (h : Asked s .restart []) (sent : Nat) (outbid : Bool) :
    exec (.restart [] sent outbid) s = .next (replied (s.restart sent outbid) .ok .restart []) :=
  serve_asked _ h

/-- The records of the class defaults (R51, R178). -/
theorem classRecord_defaults {s : State} (h : s.lease.classes = classDefaults) :
    s.classRecord 0 = [0, 2, 88, 2, 1] ∧ s.classRecord 1 = [1, 0, 60, 1, 1] ∧ s.classRecord 2 = [2, 14, 16, 2, 0] ∧
      s.classRecord 3 = [3, 255, 255, 3, 0] := by
  unfold State.classRecord
  rw [h]
  decide

/-- Settles O45: the record of the class, and the class table that a Restart and the end of the scan leave. -/
theorem classGetReadsTheTable : Obligations.ClassGetReadsTheTable := by
  unfold Obligations.ClassGetReadsTheTable
  refine ⟨fun s c h => ⟨fun hc => exec_classGet h (ownClassGet_outside hc s), fun k hk => ?read⟩, fun s t h =>
    classRecord_defaults ?defaults⟩
  case read =>
    rw [exec_classGet h (ownClassGet_class hk s), State.classRecord, ← hk, byteOf_toNat]
    rfl
  case defaults =>
    rcases h with ⟨_, sent, outbid, hask, rfl, ht⟩ | ⟨hp, ⟨i, x, r, hm⟩, ht⟩
    · cases (exec_restart hask sent outbid).symm.trans ht
      rfl
    · cases (exec_scanEnd hp hm).symm.trans ht
      rfl

end Sys2Proof.Machine
end

section
/-! PROOFS. Scan: the lowest eight marked entries, and their marks cleared (O40). -/

namespace Sys2Proof.Machine

open Sys2Proof.Safety

/-! ### O40: Scan -/

@[simp] theorem State.mem_marked {s : State} {p : Pool} : p ∈ s.marked ↔ (s.entry p).mark = true := by
  simp [State.marked, pools]

theorem State.pairwise_marked (s : State) : s.marked.Pairwise (· < ·) :=
  (List.sortedLT_finRange 112).pairwise.filter _

theorem State.length_marked (s : State) : s.marked.length = (List.finRange 112).countP fun p => (s.entry p).mark :=
  List.countP_eq_length_filter.symm

/-- What stands in a prefix of an ascending list is below the rest: a lower element of the list is in the prefix too. -/
theorem mem_take_of_lt {l : List Pool} (hl : l.Pairwise (· < ·)) {n : Nat} {p q : Pool} (hp : p ∈ l.take n) (hq : q ∈ l)
    (hlt : q < p) : q ∈ l.take n := by
  rw [← l.take_append_drop n] at hl hq
  obtain ⟨-, -, hbelow⟩ := List.pairwise_append.1 hl
  exact (List.mem_append.1 hq).resolve_right fun hdrop => (hbelow p hp q hdrop).asymm hlt

/-- The entries that a Scan returns: the lowest eight of those marked (R193). -/
def State.scanned (s : State) : List Pool := s.marked.take 8

theorem State.length_scanned (s : State) :
    s.scanned.length = min 8 ((List.finRange 112).countP fun p => (s.entry p).mark) := by
  rw [State.scanned, List.length_take, s.length_marked]

theorem State.pairwise_scanned (s : State) : s.scanned.Pairwise (· < ·) := s.pairwise_marked.take

theorem State.mark_of_mem_scanned {s : State} {p : Pool} (h : p ∈ s.scanned) : (s.entry p).mark = true :=
  State.mem_marked.1 (List.mem_of_mem_take h)

theorem State.mem_scanned_of_lt {s : State} {p q : Pool} (hp : p ∈ s.scanned) (hq : (s.entry q).mark = true)
    (hlt : q < p) : q ∈ s.scanned :=
  mem_take_of_lt s.pairwise_marked hp (State.mem_marked.2 hq) hlt

/-- MORE is the top bit over a count of at most eight, so it adds 128 (R173). -/
theorem countByte_or_more : ∀ {n : Nat} (_ : n < 9) (more : Bool),
    byteOf n ||| flagBit more 7 = byteOf (n + if more then 128 else 0) := by decide

theorem State.scanData_scanned (s : State) : s.scanData s.scanned (decide (8 < s.marked.length)) =
    byteOf (s.scanned.length + (if 8 < (List.finRange 112).countP (fun p => (s.entry p).mark) then 128 else 0)) ::
      s.scanned.flatMap (fun p => [poolByte p, (s.leaseOf p).state.code]) := by
  have hlen : s.scanned.length < 9 := by
    rw [s.length_scanned]
    omega
  simp only [State.scanData, countByte_or_more hlen, decide_eq_true_eq, s.length_marked]

/-- A mark is kept outside the entries chosen (R194). -/
theorem State.entry_clearMarks_eq (s : State) (chosen : List Pool) (p : Pool) :
    (s.clearMarks chosen).entry p = { s.entry p with mark := (s.entry p).mark && !chosen.contains p } := by
  rw [State.entry_clearMarks]
  cases chosen.contains p with
  | true => simp
  | false => simp

@[simp] theorem State.entry_replied (s : State) (st : ReplyStatus) (c : RequestCode) (d : List Byte) (p : Pool) :
    (replied s st c d).entry p = s.entry p := rfl

theorem exec_scan {s : State} (h : Asked s .scan []) : exec (.scan []) s = .next
    (replied (s.clearMarks s.scanned) .ok .scan (s.scanData s.scanned (decide (8 < s.marked.length)))) :=
  serve_asked _ h

/-- Settles O40: the entries chosen are a prefix of the ascending list of those marked. -/
theorem scanReturnsAndClearsMarks : Obligations.ScanReturnsAndClearsMarks := by
  unfold Obligations.ScanReturnsAndClearsMarks
  intro s h
  refine ⟨_, s.scanned, _, exec_scan h, rfl, s.pairwise_scanned, s.length_scanned, fun _ => State.mark_of_mem_scanned,
    fun _ _ => State.mem_scanned_of_lt, s.scanData_scanned, fun p => ?_⟩
  rw [State.entry_replied, State.entry_clearMarks_eq]

end Sys2Proof.Machine
end

section
/-! PROOFS. A step with a command waiting (O1). -/

namespace Sys2Proof.Machine

/-- The front command is taken off the queue before its effect, so the effect meets the queue's rest (log 1). -/
theorem step_of_pending_cons {s : State} {c : Instr} {rest : List Instr} (hq : s.pending = c :: rest) :
    step s = exec c (s.withPending rest) := by
  rw [step, hq]

/-- Settles O1: the state with the queue's rest is `State.withPending`, field by field. -/
theorem stepRunsTheFrontCommand : Obligations.StepRunsTheFrontCommand := by
  unfold Obligations.StepRunsTheFrontCommand
  intro s c rest hq
  exact step_of_pending_cons hq

end Sys2Proof.Machine
end
